-- ==== Sys2Proof/Word.lean ====
section
/-! DEFINITION. Word.lean: the word types of the machine and the sparse table type its plain-data state is made of. -/

namespace Sys2Proof

/-- Eight bits of memory (R7: little-endian throughout). -/
abbrev Byte := BitVec 8
/-- One 32-bit instruction word (R146). -/
abbrev W32 := BitVec 32
/-- A 64-bit register, address or operand value. -/
abbrev W64 := BitVec 64
/-- A 128-bit table entry (R38, R60, R65, R80). -/
abbrev W128 := BitVec 128

/-- A sparse table: key and value pairs in ascending order of key; a key that is not listed holds the
table's reset value, which the reader of the table names. -/
abbrev Map (α : Type) := List (Nat × α)

end Sys2Proof
end

