-- ==== Sys2Proof/Config.lean ====
section
/-! DEFINITION. Config.lean: what the spec leaves open. Every constant here is opaque: it has no value that a proof
could use. A free value is one of these applied to the counter `State.free`, which the step reads and advances, or
to the data the value is a function of. -/

namespace Sys2Proof.Config

/-- The 64-bit values that the spec leaves undefined, one for each count (log 1, DESIGN CHOICE). -/
opaque freeWord : Nat → BitVec 64

/-- SHA-384 of a byte string (R438, R441): named by the spec, not defined by it (log 2, PRESUMED). -/
opaque sha384 : List Byte → BitVec 384

/-- ECDSA P-384 verification: key, message hash, signature (R438; log 2, PRESUMED). -/
opaque ecdsaVerify : BitVec 768 → BitVec 384 → BitVec 768 → Bool

/-- The root key hash that the mask ROM holds (R439). -/
opaque rootKeyHash : BitVec 384

/-- The identity key pair's public half, as the PUF of anchor 0 or 1 of a device gives it with the HELPER section;
`none` when the derivation fails (R440). -/
opaque identityKey : Nat → Nat → List Byte → Option (BitVec 768)

/-- The signature r, s that the identity key of a device gives a report, one for each count (R441). -/
opaque identitySign : Nat → Nat → List Byte → BitVec 768

/-- The key stream of AES-256-GCM (R426), which a flit's body is combined with: of the key, as its generation on the link,
and the nonce (log 2, PRESUMED). -/
opaque gcmStream : Nat → BitVec 96 → BitVec 1792

/-- The tag of AES-256-GCM over a header and an encrypted body (R426; log 2, PRESUMED). -/
opaque gcmTag : Nat → BitVec 96 → BitVec 64 → BitVec 1792 → BitVec 128

/-- The units that a REPAIR section retires (R396, R438): retired cores by packed coordinate over 4 within the
device, retired bulkheads, and healthy lanes of a bulkhead's port. The spec gives the section no layout (log 3, DESIGN CHOICE). -/
opaque repairCore : List Byte → Nat → Bool
opaque repairBulkhead : List Byte → Nat → Bool
opaque repairLanes : List Byte → Nat → BitVec 8

/-- The link id that firmware gives a direction of a link at training (R426). -/
opaque linkId : Nat → BitVec 32

end Sys2Proof.Config
end

