-- ==== Sys2Proof/Syntax.lean ====
section
/-! DEFINITION. Syntax.lean: the fields of the instruction forms (chapter 08) and the one type of instructions and steps. -/

namespace Sys2Proof

/-- The guard of word 0 [5:2] (R149): index and negate. -/
structure Guard where
  neg : Bool
  idx : BitVec 3
  deriving DecidableEq, Repr

/-- An extended operand field (Table 08-10): file [15:14], stagger [13], width − 1 [12:9], start [8:0]. -/
structure Slot where
  file  : BitVec 2
  stag  : Bool
  wm1   : BitVec 4
  start : BitVec 9
  deriving DecidableEq, Repr

/-- The three window operands of form B3 (Table 08-2), and the literal of length 0b01 (R155). -/
structure B3 where
  b : BitVec 6
  a : BitVec 6
  d : BitVec 6
  lit : Option (BitVec 64)
  deriving DecidableEq, Repr

/-- A base form that uses a and d only (R154: b is zero). -/
structure BU where
  a : BitVec 6
  d : BitVec 6
  deriving DecidableEq, Repr

/-- Form BI (Table 08-3). -/
structure BI where
  imm : BitVec 12
  d : BitVec 6
  deriving DecidableEq, Repr

/-- The base form of icmp: d names a guard pair (R153), p for the condition and q for its complement. -/
structure BC where
  b : BitVec 6
  a : BitVec 6
  q : BitVec 3
  p : BitVec 3
  lit : Option (BitVec 64)
  deriving DecidableEq, Repr

/-- Extended form, arithmetic layout of word 2 (Tables 08-5 to 08-7), and the literal of length 0b11 (R160). -/
structure XA where
  var : BitVec 2
  d : Slot
  a : Slot
  b : Slot
  ty : BitVec 4
  mod : BitVec 12
  c : Slot
  lit : Option (BitVec 64)
  deriving DecidableEq, Repr

/-- Extended form, memory layout of word 2 (Table 08-8). -/
structure XM where
  var : BitVec 2
  d : Slot
  a : Slot
  b : Slot
  ty : BitVec 4
  off : BitVec 12
  z : BitVec 4
  op : BitVec 4
  scope : BitVec 3
  ord : BitVec 2
  ctr : BitVec 3
  lit : Option (BitVec 64)
  deriving DecidableEq, Repr

/-- Extended form, matrix layout of word 2 (Table 08-9). -/
structure XT where
  var : BitVec 2
  d : Slot
  a : Slot
  b : Slot
  mcB : Bool
  mcA : Bool
  masks : Bool
  zf : Bool
  k : BitVec 12
  ctl : BitVec 4
  tr : Bool
  ctr : BitVec 3
  bty : BitVec 4
  aty : BitVec 4
  lit : Option (BitVec 64)
  deriving DecidableEq, Repr

/-- A fabric flit as it lies on a link (Table 22-2): link header, sealed body, GCM tag, CRC. -/
structure Flit where
  hdr  : BitVec 64
  body : BitVec 1792
  tag  : BitVec 128
  crc  : BitVec 64
  deriving DecidableEq, Repr

/-- A flit that arrives at a switch in one slot: its input port, the flit, its opened body, and the up port the leaf
chooses for it (R417 leaves that choice free). -/
structure Arrival where
  inPort : Nat
  flit   : Flit
  up     : Nat
  deriving DecidableEq, Repr

/-- An activation that is ready: the translated one of a reactor, or the head of its page requests (R355). -/
inductive Aging where
  | formed (r : Nat)
  | page (r : Nat)
  deriving DecidableEq, Repr

/-- One constructor per row of spec/opcode_table.json, in the table's order: the instructions of the opcode map
(R162; the base form under the plain name, the extended form under the name ending in `Ext` where both exist),
then the steps that other agents take (spec/95_what_each_step_holds.md). -/
inductive Instr where
  /-- NOP (R213) -/
  | nop (g : Guard)
  /-- NOP_EXT (R213) -/
  | nopExt (g : Guard) (x : XA)
  /-- BR (R214) -/
  | br (g : Guard) (off : BitVec 18)
  /-- BRX (R215) -/
  | brx (g : Guard) (a : BitVec 6)
  /-- BRX_EXT (R215) -/
  | brxExt (g : Guard) (x : XA)
  /-- CALL (R214) -/
  | call (g : Guard) (off : BitVec 18)
  /-- CALLX (R215) -/
  | callx (g : Guard) (o : BU)
  /-- CALLX_EXT (R215) -/
  | callxExt (g : Guard) (x : XA)
  /-- RET (R215) -/
  | ret (g : Guard) (a : BitVec 6)
  /-- RET_EXT (R215) -/
  | retExt (g : Guard) (x : XA)
  /-- REP (R193) -/
  | rep (g : Guard) (x : XA)
  /-- DONE (R217) -/
  | done (g : Guard)
  /-- DONE_EXT (R217) -/
  | doneExt (g : Guard) (x : XA)
  /-- IADD (R198) -/
  | iadd (g : Guard) (o : B3)
  /-- IADD_EXT (R198) -/
  | iaddExt (g : Guard) (x : XA)
  /-- ISUB (R198) -/
  | isub (g : Guard) (o : B3)
  /-- ISUB_EXT (R198) -/
  | isubExt (g : Guard) (x : XA)
  /-- IMUL (R198) -/
  | imul (g : Guard) (o : B3)
  /-- IMUL_EXT (R198) -/
  | imulExt (g : Guard) (x : XA)
  /-- IMULH (R198) -/
  | imulh (g : Guard) (o : B3)
  /-- IMULH_EXT (R198) -/
  | imulhExt (g : Guard) (x : XA)
  /-- IMULHU (R198) -/
  | imulhu (g : Guard) (o : B3)
  /-- IMULHU_EXT (R198) -/
  | imulhuExt (g : Guard) (x : XA)
  /-- IDIV (R199) -/
  | idiv (g : Guard) (o : B3)
  /-- IDIV_EXT (R199) -/
  | idivExt (g : Guard) (x : XA)
  /-- IDIVU (R199) -/
  | idivu (g : Guard) (o : B3)
  /-- IDIVU_EXT (R199) -/
  | idivuExt (g : Guard) (x : XA)
  /-- IREM (R199) -/
  | irem (g : Guard) (o : B3)
  /-- IREM_EXT (R199) -/
  | iremExt (g : Guard) (x : XA)
  /-- IREMU (R199) -/
  | iremu (g : Guard) (o : B3)
  /-- IREMU_EXT (R199) -/
  | iremuExt (g : Guard) (x : XA)
  /-- IMIN (R198) -/
  | imin (g : Guard) (o : B3)
  /-- IMIN_EXT (R198) -/
  | iminExt (g : Guard) (x : XA)
  /-- IMAX (R198) -/
  | imax (g : Guard) (o : B3)
  /-- IMAX_EXT (R198) -/
  | imaxExt (g : Guard) (x : XA)
  /-- IMINU (R198) -/
  | iminu (g : Guard) (o : B3)
  /-- IMINU_EXT (R198) -/
  | iminuExt (g : Guard) (x : XA)
  /-- IMAXU (R198) -/
  | imaxu (g : Guard) (o : B3)
  /-- IMAXU_EXT (R198) -/
  | imaxuExt (g : Guard) (x : XA)
  /-- IABS (R200) -/
  | iabs (g : Guard) (o : BU)
  /-- IABS_EXT (R200) -/
  | iabsExt (g : Guard) (x : XA)
  /-- INEG (R200) -/
  | ineg (g : Guard) (o : BU)
  /-- INEG_EXT (R200) -/
  | inegExt (g : Guard) (x : XA)
  /-- AND (R201) -/
  | and (g : Guard) (o : B3)
  /-- AND_EXT (R201) -/
  | andExt (g : Guard) (x : XA)
  /-- OR (R201) -/
  | or (g : Guard) (o : B3)
  /-- OR_EXT (R201) -/
  | orExt (g : Guard) (x : XA)
  /-- XOR (R201) -/
  | xor (g : Guard) (o : B3)
  /-- XOR_EXT (R201) -/
  | xorExt (g : Guard) (x : XA)
  /-- ANDN (R201) -/
  | andn (g : Guard) (o : B3)
  /-- ANDN_EXT (R201) -/
  | andnExt (g : Guard) (x : XA)
  /-- ORN (R201) -/
  | orn (g : Guard) (o : B3)
  /-- ORN_EXT (R201) -/
  | ornExt (g : Guard) (x : XA)
  /-- SHL (R202) -/
  | shl (g : Guard) (o : B3)
  /-- SHL_EXT (R202) -/
  | shlExt (g : Guard) (x : XA)
  /-- SHR (R202) -/
  | shr (g : Guard) (o : B3)
  /-- SHR_EXT (R202) -/
  | shrExt (g : Guard) (x : XA)
  /-- SAR (R202) -/
  | sar (g : Guard) (o : B3)
  /-- SAR_EXT (R202) -/
  | sarExt (g : Guard) (x : XA)
  /-- ROL (R202) -/
  | rol (g : Guard) (o : B3)
  /-- ROL_EXT (R202) -/
  | rolExt (g : Guard) (x : XA)
  /-- CLZ (R203) -/
  | clz (g : Guard) (o : BU)
  /-- CLZ_EXT (R203) -/
  | clzExt (g : Guard) (x : XA)
  /-- CTZ (R203) -/
  | ctz (g : Guard) (o : BU)
  /-- CTZ_EXT (R203) -/
  | ctzExt (g : Guard) (x : XA)
  /-- POPC (R203) -/
  | popc (g : Guard) (o : BU)
  /-- POPC_EXT (R203) -/
  | popcExt (g : Guard) (x : XA)
  /-- SEXT (R204) -/
  | sext (g : Guard) (x : XA)
  /-- ZEXT (R204) -/
  | zext (g : Guard) (x : XA)
  /-- BFX (R205) -/
  | bfx (g : Guard) (x : XA)
  /-- BFI (R205) -/
  | bfi (g : Guard) (x : XA)
  /-- MOV (R206) -/
  | mov (g : Guard) (o : BU)
  /-- MOV_EXT (R206) -/
  | movExt (g : Guard) (x : XA)
  /-- LI (R206) -/
  | li (g : Guard) (o : BI)
  /-- LI_EXT (R206) -/
  | liExt (g : Guard) (x : XA)
  /-- LEA (R207) -/
  | lea (g : Guard) (o : B3)
  /-- LEA_EXT (R207) -/
  | leaExt (g : Guard) (x : XA)
  /-- SEL (R208) -/
  | sel (g : Guard) (x : XA)
  /-- ICMP_EQ (R210) -/
  | icmpEq (g : Guard) (o : BC)
  /-- ICMP_EQ_EXT (R210) -/
  | icmpEqExt (g : Guard) (x : XA)
  /-- ICMP_NE (R210) -/
  | icmpNe (g : Guard) (o : BC)
  /-- ICMP_NE_EXT (R210) -/
  | icmpNeExt (g : Guard) (x : XA)
  /-- ICMP_LT (R210) -/
  | icmpLt (g : Guard) (o : BC)
  /-- ICMP_LT_EXT (R210) -/
  | icmpLtExt (g : Guard) (x : XA)
  /-- ICMP_LE (R210) -/
  | icmpLe (g : Guard) (o : BC)
  /-- ICMP_LE_EXT (R210) -/
  | icmpLeExt (g : Guard) (x : XA)
  /-- ICMP_LTU (R210) -/
  | icmpLtu (g : Guard) (o : BC)
  /-- ICMP_LTU_EXT (R210) -/
  | icmpLtuExt (g : Guard) (x : XA)
  /-- ICMP_LEU (R210) -/
  | icmpLeu (g : Guard) (o : BC)
  /-- ICMP_LEU_EXT (R210) -/
  | icmpLeuExt (g : Guard) (x : XA)
  /-- GOP (R211) -/
  | gop (g : Guard) (x : XA)
  /-- GMOV (R212) -/
  | gmov (g : Guard) (x : XA)
  /-- SMOV (R189) -/
  | smov (g : Guard) (x : XA)
  /-- SPILL (R191) -/
  | spill (g : Guard) (x : XA)
  /-- FILL (R191) -/
  | fill (g : Guard) (x : XA)
  /-- IADDI (R209) -/
  | iaddi (g : Guard) (o : BI)
  /-- LD (R225) -/
  | ld (g : Guard) (x : XM)
  /-- ST (R225) -/
  | st (g : Guard) (x : XM)
  /-- VLD (R226) -/
  | vld (g : Guard) (x : XM)
  /-- VST (R226) -/
  | vst (g : Guard) (x : XM)
  /-- AMO (R228) -/
  | amo (g : Guard) (x : XM)
  /-- ACAS (R229) -/
  | acas (g : Guard) (x : XM)
  /-- FAMO (R231) -/
  | famo (g : Guard) (x : XM)
  /-- MCAS (R232) -/
  | mcas (g : Guard) (x : XM)
  /-- LENQ (R233) -/
  | lenq (g : Guard) (x : XM)
  /-- PCHASE (R234) -/
  | pchase (g : Guard) (x : XM)
  /-- FENCE (R235) -/
  | fence (g : Guard) (x : XM)
  /-- WAIT (R236) -/
  | wait (g : Guard) (x : XM)
  /-- COMMIT (R237) -/
  | commit (g : Guard) (x : XM)
  /-- CVTA (R238) -/
  | cvta (g : Guard) (x : XM)
  /-- PF (R239) -/
  | pf (g : Guard) (x : XM)
  /-- CWB (R240) -/
  | cwb (g : Guard) (x : XM)
  /-- SEND (R241) -/
  | send (g : Guard) (x : XM)
  /-- SENDR (R242) -/
  | sendr (g : Guard) (x : XM)
  /-- TNOW (R244) -/
  | tnow (g : Guard) (x : XM)
  /-- TCUR (R244) -/
  | tcur (g : Guard) (x : XM)
  /-- LARM (R245) -/
  | larm (g : Guard) (x : XM)
  /-- LPATCH (R245) -/
  | lpatch (g : Guard) (x : XM)
  /-- LSTAT (R245) -/
  | lstat (g : Guard) (x : XM)
  /-- BAR (R246) -/
  | bar (g : Guard) (x : XM)
  /-- VADD (R265) -/
  | vadd (g : Guard) (o : B3)
  /-- VADD_EXT (R265) -/
  | vaddExt (g : Guard) (x : XA)
  /-- VSUB (R265) -/
  | vsub (g : Guard) (o : B3)
  /-- VSUB_EXT (R265) -/
  | vsubExt (g : Guard) (x : XA)
  /-- VMUL (R265) -/
  | vmul (g : Guard) (o : B3)
  /-- VMUL_EXT (R265) -/
  | vmulExt (g : Guard) (x : XA)
  /-- VMULH (R265) -/
  | vmulh (g : Guard) (o : B3)
  /-- VMULH_EXT (R265) -/
  | vmulhExt (g : Guard) (x : XA)
  /-- VMAD (R265) -/
  | vmad (g : Guard) (o : B3)
  /-- VMAD_EXT (R265) -/
  | vmadExt (g : Guard) (x : XA)
  /-- VMIN (R265) -/
  | vmin (g : Guard) (o : B3)
  /-- VMIN_EXT (R265) -/
  | vminExt (g : Guard) (x : XA)
  /-- VMAX (R265) -/
  | vmax (g : Guard) (o : B3)
  /-- VMAX_EXT (R265) -/
  | vmaxExt (g : Guard) (x : XA)
  /-- VABS (R267) -/
  | vabs (g : Guard) (o : BU)
  /-- VABS_EXT (R267) -/
  | vabsExt (g : Guard) (x : XA)
  /-- VNEG (R267) -/
  | vneg (g : Guard) (o : BU)
  /-- VNEG_EXT (R267) -/
  | vnegExt (g : Guard) (x : XA)
  /-- VAND (R265) -/
  | vand (g : Guard) (o : B3)
  /-- VAND_EXT (R265) -/
  | vandExt (g : Guard) (x : XA)
  /-- VOR (R265) -/
  | vor (g : Guard) (o : B3)
  /-- VOR_EXT (R265) -/
  | vorExt (g : Guard) (x : XA)
  /-- VXOR (R265) -/
  | vxor (g : Guard) (o : B3)
  /-- VXOR_EXT (R265) -/
  | vxorExt (g : Guard) (x : XA)
  /-- VSHL (R265) -/
  | vshl (g : Guard) (o : B3)
  /-- VSHL_EXT (R265) -/
  | vshlExt (g : Guard) (x : XA)
  /-- VSHR (R265) -/
  | vshr (g : Guard) (o : B3)
  /-- VSHR_EXT (R265) -/
  | vshrExt (g : Guard) (x : XA)
  /-- VSAR (R265) -/
  | vsar (g : Guard) (o : B3)
  /-- VSAR_EXT (R265) -/
  | vsarExt (g : Guard) (x : XA)
  /-- VSRA (R266) -/
  | vsra (g : Guard) (o : B3)
  /-- VSRA_EXT (R266) -/
  | vsraExt (g : Guard) (x : XA)
  /-- VSAT (R268) -/
  | vsat (g : Guard) (x : XA)
  /-- VCLAMP (R268) -/
  | vclamp (g : Guard) (x : XA)
  /-- VSEXT (R269) -/
  | vsext (g : Guard) (x : XA)
  /-- VZEXT (R269) -/
  | vzext (g : Guard) (x : XA)
  /-- VCMP (R270) -/
  | vcmp (g : Guard) (x : XA)
  /-- VSEL (R271) -/
  | vsel (g : Guard) (x : XA)
  /-- VMOV (R267) -/
  | vmov (g : Guard) (o : BU)
  /-- VMOV_EXT (R267) -/
  | vmovExt (g : Guard) (x : XA)
  /-- VBCAST (R272) -/
  | vbcast (g : Guard) (x : XA)
  /-- VEXT (R273) -/
  | vext (g : Guard) (x : XA)
  /-- VPERM (R274) -/
  | vperm (g : Guard) (o : B3)
  /-- VPERM_EXT (R274) -/
  | vpermExt (g : Guard) (x : XA)
  /-- VDOT (R275) -/
  | vdot (g : Guard) (x : XA)
  /-- VRED (R276) -/
  | vred (g : Guard) (x : XA)
  /-- VFADD (R277) -/
  | vfadd (g : Guard) (o : B3)
  /-- VFADD_EXT (R277) -/
  | vfaddExt (g : Guard) (x : XA)
  /-- VFSUB (R277) -/
  | vfsub (g : Guard) (o : B3)
  /-- VFSUB_EXT (R277) -/
  | vfsubExt (g : Guard) (x : XA)
  /-- VFMUL (R277) -/
  | vfmul (g : Guard) (o : B3)
  /-- VFMUL_EXT (R277) -/
  | vfmulExt (g : Guard) (x : XA)
  /-- VFMA (R277) -/
  | vfma (g : Guard) (o : B3)
  /-- VFMA_EXT (R277) -/
  | vfmaExt (g : Guard) (x : XA)
  /-- VFMIN (R278) -/
  | vfmin (g : Guard) (o : B3)
  /-- VFMIN_EXT (R278) -/
  | vfminExt (g : Guard) (x : XA)
  /-- VFMAX (R278) -/
  | vfmax (g : Guard) (o : B3)
  /-- VFMAX_EXT (R278) -/
  | vfmaxExt (g : Guard) (x : XA)
  /-- VFABS (R279) -/
  | vfabs (g : Guard) (o : BU)
  /-- VFABS_EXT (R279) -/
  | vfabsExt (g : Guard) (x : XA)
  /-- VFNEG (R279) -/
  | vfneg (g : Guard) (o : BU)
  /-- VFNEG_EXT (R279) -/
  | vfnegExt (g : Guard) (x : XA)
  /-- VFCMP (R280) -/
  | vfcmp (g : Guard) (x : XA)
  /-- VFCVT (R281) -/
  | vfcvt (g : Guard) (x : XA)
  /-- VFRCP (R277) -/
  | vfrcp (g : Guard) (o : BU)
  /-- VFRCP_EXT (R277) -/
  | vfrcpExt (g : Guard) (x : XA)
  /-- VFRSQ (R277) -/
  | vfrsq (g : Guard) (o : BU)
  /-- VFRSQ_EXT (R277) -/
  | vfrsqExt (g : Guard) (x : XA)
  /-- VFEXP2 (R277) -/
  | vfexp2 (g : Guard) (o : BU)
  /-- VFEXP2_EXT (R277) -/
  | vfexp2Ext (g : Guard) (x : XA)
  /-- VFLOG2 (R277) -/
  | vflog2 (g : Guard) (o : BU)
  /-- VFLOG2_EXT (R277) -/
  | vflog2Ext (g : Guard) (x : XA)
  /-- VFCLASS (R282) -/
  | vfclass (g : Guard) (x : XA)
  /-- VQCB (R283) -/
  | vqcb (g : Guard) (x : XA)
  /-- VBSCALE (R284) -/
  | vbscale (g : Guard) (x : XA)
  /-- VFRED (R285) -/
  | vfred (g : Guard) (x : XA)
  /-- MZERO (R299) -/
  | mzero (g : Guard) (x : XT)
  /-- MMA (R301) -/
  | mma (g : Guard) (x : XT)
  /-- MTLD (R300) -/
  | mtld (g : Guard) (x : XT)
  /-- MST (R305) -/
  | mst (g : Guard) (x : XT)
  /-- MMASK (R299) -/
  | mmask (g : Guard) (x : XT)
  /-- MRD (R306) -/
  | mrd (g : Guard) (x : XT)
  /-- MWR (R306) -/
  | mwr (g : Guard) (x : XT)
  /-- CP (R308) -/
  | cp (g : Guard) (x : XT)
  /-- CPM (R310) -/
  | cpm (g : Guard) (x : XT)
  /-- MCB (R314) -/
  | mcb (g : Guard) (x : XT)
  /-- MSTAT (R306) -/
  | mstat (g : Guard) (x : XT)
  /-- MSAVE (R307) -/
  | msave (g : Guard) (x : XT)
  /-- MREST (R307) -/
  | mrest (g : Guard) (x : XT)
  /-- RDSYS (R324) -/
  | rdsys (g : Guard) (x : XA)
  /-- WRSYS (R324) -/
  | wrsys (g : Guard) (x : XA)
  /-- FREEZE (R328) -/
  | freeze (g : Guard) (x : XA)
  /-- THAW (R329) -/
  | thaw (g : Guard) (x : XA)
  /-- TRAP (R330) -/
  | trap (g : Guard) (x : XA)
  /-- MIGRATE (R331) -/
  | migrate (g : Guard) (x : XA)
  /-- SEAL (R332) -/
  | seal (g : Guard) (x : XA)
  /-- RDCTR (R333) -/
  | rdctr (g : Guard) (x : XA)
  /-- WRCTR (R333) -/
  | wrctr (g : Guard) (x : XA)
  /-- CTRCFG (R333) -/
  | ctrcfg (g : Guard) (x : XA)
  /-- WPSET (R335) -/
  | wpset (g : Guard) (x : XA)
  /-- WPCLR (R335) -/
  | wpclr (g : Guard) (x : XA)
  /-- SIGCTL (R338) -/
  | sigctl (g : Guard) (x : XA)
  /-- PWRITE (R339) -/
  | pwrite (g : Guard) (x : XA)
  /-- BFMT_WRITE (R47) -/
  | bfmtWrite (n : BitVec 4) (v : BitVec 64)
  /-- BANK_REWRITE (R47) -/
  | bankRewrite (core : Nat) (bank : Nat)
  /-- PGANS (R78) -/
  | pgans (v : BitVec 64)
  /-- PGINV (R78) -/
  | pginv (v : BitVec 64)
  /-- FRMCTL_ATTRIBUTES (R79) -/
  | frmctlAttributes (v : BitVec 64)
  /-- FRMCTL_WITHDRAW (R79) -/
  | frmctlWithdraw (v : BitVec 64)
  /-- FRMCTL_FILL (R79) -/
  | frmctlFill (v : BitVec 64)
  /-- FRMCTL_RESTORE (R79) -/
  | frmctlRestore (v : BitVec 64)
  /-- SYSREG_WRITE (R324) -/
  | sysregWrite (n : BitVec 64) (v : BitVec 64)
  /-- LOAD_DATA_ARRIVAL (R184) -/
  | loadDataArrival (id : Nat)
  /-- STORE_ACK (R107) -/
  | storeAck (id : Nat)
  /-- DRAIN_END (R108) -/
  | drainEnd (ts : Nat)
  /-- DONE_RETIRE (R217) -/
  | doneRetire (ts : Nat)
  /-- COMMIT_COMPLETE (R237) -/
  | commitComplete (ts : Nat)
  /-- ENGINE_COMPLETION (R290) -/
  | engineCompletion (id : Nat)
  /-- WEEVIL_REPLY (R230) -/
  | weevilReply (id : Nat)
  /-- LOCAL_TIME_ADVANCE (R350) -/
  | localTimeAdvance (dev : Nat) (part : Nat) (ns : Nat)
  /-- EVENT_ARRIVAL (R361) -/
  | eventArrival (id : Nat)
  /-- TABLE_WALK_DONE (R66) -/
  | tableWalkDone (id : Nat)
  /-- PAGER_ANSWER_ARRIVAL (R78) -/
  | pagerAnswerArrival (id : Nat)
  /-- PIN_REPLY (R67) -/
  | pinReply (id : Nat)
  /-- DISPATCH (R354) -/
  | dispatch (core : Nat)
  /-- PRIORITY_AGING (R355) -/
  | priorityAging (a : Aging)
  /-- LATE_TRANSLATION_FILL (R71) -/
  | lateTranslationFill (id : Nat)
  /-- BUDDY_TIMEOUT (R367) -/
  | buddyTimeout (ts : Nat)
  /-- FORWARD_EXPIRY (R375) -/
  | forwardExpiry (cl : Nat) (ix : Nat)
  /-- MIGRATION_TAKEOVER (R372) -/
  | migrationTakeover (id : Nat)
  /-- DISARM_RELEASE (R138) -/
  | disarmRelease (id : Nat)
  /-- CORE_RESTART (R389) -/
  | coreRestart (core : Nat)
  /-- REPLAY_FEED_INPUT (R409) -/
  | replayFeedInput (bh : Nat)
  /-- GATE_LOAD_REQUEST (R37) -/
  | gateLoadRequest (id : Nat)
  /-- GATE_STORE_REQUEST (R37) -/
  | gateStoreRequest (id : Nat)
  /-- GATE_ATOMIC_REQUEST (R228) -/
  | gateAtomicRequest (id : Nat)
  /-- WEEVIL_FAMO (R231) -/
  | weevilFamo (id : Nat)
  /-- WEEVIL_MCAS (R232) -/
  | weevilMcas (id : Nat)
  /-- WEEVIL_LENQ (R233) -/
  | weevilLenq (id : Nat)
  /-- WEEVIL_PCHASE (R234) -/
  | weevilPchase (id : Nat)
  /-- PCHASE_SLOT_TIMEOUT (R234) -/
  | pchaseSlotTimeout (id : Nat)
  /-- PIN_MESSAGE (R67) -/
  | pinMessage (id : Nat)
  /-- CREDIT_RETURN (R344) -/
  | creditReturn (id : Nat)
  /-- SPARE_REQUEST (R344) -/
  | spareRequest (id : Nat)
  /-- SPARE_GRANT (R344) -/
  | spareGrant (r : Nat)
  /-- REWRITE_NOTICE (R375) -/
  | rewriteNotice (id : Nat)
  /-- REWRITE_ACK (R375) -/
  | rewriteAck (id : Nat)
  /-- HELD_READ_TIMEOUT (R75) -/
  | heldReadTimeout (id : Nat)
  /-- REPLY_TIMEOUT (R422) -/
  | replyTimeout (id : Nat)
  /-- MIGRATION_ENTRY_WRITE (R80) -/
  | migrationEntryWrite (port : Nat) (bh : Nat) (ix : Nat) (v : BitVec 128)
  /-- MIGRATION_LINE_COPY (R81) -/
  | migrationLineCopy (bh : Nat) (ix : Nat)
  /-- SIDE_TABLE_WRITE (R84) -/
  | sideTableWrite (frame : Nat) (v : BitVec 128)
  /-- FLIT_RECEIVE (R416) -/
  | flitReceive (link : Nat) (f : Flit)
  /-- NAK_RECEIVED (R416) -/
  | nakReceived (link : Nat) (ack : BitVec 12)
  /-- RETRAIN_DONE (R428) -/
  | retrainDone (link : Nat)
  /-- KEY_SWITCH_MARKER (R427) -/
  | keySwitchMarker (link : Nat)
  /-- MARKER_RECEIVED (R427) -/
  | markerReceived (link : Nat) (f : Flit)
  /-- LANE_FAILURE (R425) -/
  | laneFailure (link : Nat) (lane : Nat)
  /-- SWITCH_FLIT_ROUTE (R417) -/
  | switchFlitRoute (sw : Nat) (arr : List Arrival)
  /-- COMBINED_REPLY_SPLIT (R421) -/
  | combinedReplySplit (sw : Nat) (rec : Nat) (m : BitVec 64) (err : BitVec 5)
  /-- HEARTBEAT_SEND (R423) -/
  | heartbeatSend (bh : Nat)
  /-- HEARTBEAT_RECEIVE (R423) -/
  | heartbeatReceive (leaf : Nat) (port : Nat) (ns : Nat)
  /-- HEARTBEAT_TIMEOUT (R423) -/
  | heartbeatTimeout (leaf : Nat) (port : Nat) (ns : Nat)
  /-- MEMBER_NOTICE (R424) -/
  | memberNotice (bh : Nat) (dev : Nat) (up : Bool)
  /-- TIMING_EXCHANGE (R345) -/
  | timingExchange (dev : Nat) (part : Nat) (plane : Nat)
  /-- TIMING_REQUEST (R345) -/
  | timingRequest (id : Nat)
  /-- TIMING_REPLY (R345) -/
  | timingReply (id t4 rate : Nat)
  /-- CXL_MEM_READ (R40) -/
  | cxlMemRead (port : Nat) (off : Nat) (n : Nat)
  /-- CXL_MEM_WRITE (R40) -/
  | cxlMemWrite (port : Nat) (off : Nat) (data : List (BitVec 8))
  /-- MAILBOX_GO (R434) -/
  | mailboxGo (port : Nat)
  /-- HSEM_ACQUIRE (R433) -/
  | hsemAcquire (port : Nat) (both : Bool)
  /-- HSEM_RELEASE (R433) -/
  | hsemRelease (port : Nat)
  /-- HOST_LINK_DOWN (R433) -/
  | hostLinkDown (port : Nat)
  /-- ARMCTL_ARM (R437) -/
  | armctlArm (port : Nat) (v : BitVec 64)
  /-- ARMCTL_DISARM (R437) -/
  | armctlDisarm (port : Nat) (v : BitVec 64)
  /-- ATTEST_REQUEST (R441) -/
  | attestRequest (port : Nat)
  /-- ATTEST_COMPLETE (R441) -/
  | attestComplete (port : Nat)
  /-- BHPART_WRITE (R390) -/
  | bhpartWrite (port : Nat) (bh : Nat) (v : BitVec 64)
  /-- BULKHEAD_RESET (R394) -/
  | bulkheadReset (port : Nat) (bh : Nat)
  /-- BULKHEAD_RESET_END (R394) -/
  | bulkheadResetEnd (bh : Nat)
  /-- PCFG_WRITE (R435) -/
  | pcfgWrite (port : Nat) (bh : Nat) (v : BitVec 64)
  /-- PWR_REQ_ON (R442) -/
  | pwrReqOn (port : Nat) (bh : Nat)
  /-- PWR_REQ_IDLE (R442) -/
  | pwrReqIdle (port : Nat) (bh : Nat)
  /-- PWR_REQ_OFF (R442) -/
  | pwrReqOff (port : Nat) (bh : Nat)
  /-- WINDOW_TABLE_WRITE (R39) -/
  | windowTableWrite (port : Nat) (bh : Nat) (ix : Nat) (v : BitVec 128)
  /-- TRWP_WRITE (R397) -/
  | trwpWrite (port : Nat) (bh : Nat) (v : BitVec 64)
  /-- STOP_REQUEST (R401) -/
  | stopRequest (port : Nat) (cl : Nat) (rid : BitVec 16)
  /-- STOP_RELEASE (R401) -/
  | stopRelease (port : Nat) (cl : Nat) (rid : BitVec 16)
  /-- DEAD_MEMBER_CLEAR (R424) -/
  | deadMemberClear (port : Nat) (bh : Nat) (dev : Nat)
  /-- MGMT_REGISTER_WRITE (R432) -/
  | mgmtRegisterWrite (port : Nat) (off : Nat) (v : BitVec 64)
  /-- THERMAL_THROTTLE (R443) -/
  | thermalThrottle (bh : Nat) (temp : BitVec 8)
  /-- THERMAL_TRIP (R443) -/
  | thermalTrip (bh : Nat) (temp : BitVec 8)
  /-- POWER_CAP_EXCEEDED (R443) -/
  | powerCapExceeded (dev : Nat) (w : BitVec 16)
  /-- MODULE_POWER_ON (R439) -/
  | modulePowerOn (dev : Nat) (img0 : List (BitVec 8)) (img1 : List (BitVec 8))
  /-- BOOT_LEAD_TIMEOUT (R439) -/
  | bootLeadTimeout (dev : Nat)
  /-- BOOT_DONE (R439) -/
  | bootDone (dev : Nat)
  /-- MODULE_RESET (R1) -/
  | moduleReset (dev : Nat)
  /-- REFERENCE_LOCK_LOSS (R345) -/
  | referenceLockLoss (dev : Nat) (part : Nat)
  /-- REFERENCE_LOCK_RETURN (R345) -/
  | referenceLockReturn (dev : Nat) (part : Nat)
  /-- SWITCH_FAILURE (R430) -/
  | switchFailure (sw : Nat)
  /-- RETIRED_SLOT_KEY_LOAD (R427) -/
  | retiredSlotKeyLoad (link : Nat)
  /-- HOST_LINK_UP (R433) -/
  | hostLinkUp (port : Nat)
  /-- POWER_WITHIN_CAP (R443) -/
  | powerWithinCap (dev : Nat) (w : BitVec 16)
  /-- MEMORY_BIT_ERROR (R53) -/
  | memoryBitError (sector : Nat) (data : BitVec 512) (check : BitVec 64)
  deriving DecidableEq, Repr

end Sys2Proof
end

