-- ==== Sys2Proof/Machine/State.lean ====
section
/-! DEFINITION. State.lean: every piece of state the spec gives the pod, as plain data, and its value after reset. The
default value of each field is its reset value; a table (`Map`) lists only entries that differ from their reset value.
A unit is keyed by its packed coordinate (R4): a thread set by all 27 bits, a core by bits 26:2, a cluster by bits
26:10, a bulkhead by bits 26:12, a device by bits 26:17, a reactor by its cluster key * 65536 + its reactor id. -/

namespace Sys2Proof.Machine

/-- Why the machine stops with a fault. -/
inductive Fault where
  /-- The coordinate that is to issue names no unit: a bulkhead field of 24 to 31 (R4) or more than 27 bits. Raised by
  `step` only. Safe: the spec gives such a coordinate no thread set that could go on. -/
  | noUnit
  deriving DecidableEq, Repr

/-- Why the machine refuses an instruction. -/
inductive Refusal where
  /-- The instruction has no meaning yet. Raised by an arm of `exec` only. Safe: the model stops where the hardware
  goes on. -/
  | notModelled (mnemonic : String)
  deriving DecidableEq, Repr

/-- A queue entry (Table 18-1) without its place in the ring. -/
structure QEntry where
  tagt : W64 := 0
  tagm : W32 := 0
  sender : W32 := 0
  route : BitVec 24 := 0
  flags : Byte := 0
  sendt : W32 := 0
  payload : W64 := 0
  /-- the entry address a host message names (R141) -/
  host : W64 := 0
  deriving DecidableEq, Repr

/-- Where a queue entry's ring slot came from (R343, R344): a connection's own entry, a spare, the ingress entry of
a HOSTRX reactor, or a start event's entry. -/
inductive Owner where
  | conn (reactor : Nat) (index : Nat)
  | spareOf (reactor : Nat) (index : Nat)
  | spare
  | ingress
  /-- a start event, with the reactor whose larm armed it, if one did -/
  | start (by_ : Option Nat)
  /-- none yet: a cancel token whose sender went with a reset takes a spare of its target on arrival (R394) -/
  | unheld
  deriving DecidableEq, Repr

/-- How far a waiting entry has come (R352). -/
inductive EState where
  | waiting | counted | fired
  deriving DecidableEq, Repr

/-- An indexed entry of an input queue: its ring slot, contents, unit of F, state, arrival order and index time. -/
structure Entry where
  slot : Nat
  q : QEntry
  owner : Owner
  st : EState := .waiting
  order : Nat := 0
  tarr : Nat := 0
  /-- A straggler under R142. -/
  late : Bool := false
  /-- Of a page request: the order in which it became ready, and the cycles it has been so, by 2^16 (R354, R355). -/
  ready : Nat := 0
  age : Nat := 0
  deriving DecidableEq, Repr

/-- A connection of an armed instance (Table 07-3), bound at arming (R135): the target reactor and its free-entry
count F, and the owner's view after a rewrite notice. -/
structure Conn where
  bits : W128
  target : Nat
  tport : Nat
  /-- the target's core -/
  tcore : Nat := 0
  f : Nat := 1
  /-- A spare request is out, or a spare has been granted (R344). -/
  asked : Bool := false
  granted : Bool := false
  /-- The target has been released (R138 step 4). -/
  dead : Bool := false
  /-- The target went with its bulkhead's reset (R394). -/
  lost : Bool := false
  deriving DecidableEq, Repr

/-- A store held in the commit window (R100): generic address, physical address, level of its page, bytes, order class,
whether it was written with a release order and whether that holds at cluster scope or wider, the scope it names, the release
fences before it (R102), and whether a fence has shown it to the core's copy engine and to its matrix array (R103). -/
structure Held where
  va : Nat
  pa : Nat
  lvl : Nat := 0
  bytes : List Byte
  ord : Nat := 1
  rel : Bool := false
  wide : Bool := true
  scope : Nat := 0
  epoch : Nat := 0
  visCopy : Bool := false
  visMat : Bool := false
  deriving DecidableEq, Repr

/-- An event held in the commit window, or in the send queue (R243). -/
structure Msg where
  reactor : Nat
  conn : Nat
  tagt : W64
  tagm : W32
  sender : W32
  flags : Byte := 0
  payload : W64 := 0
  /-- the thread set whose earlier accesses a cancel token releases: it leaves once they are performed (R114) -/
  after : Option Nat := none
  deriving DecidableEq, Repr

/-- What kind of activation runs. -/
inductive ActKind where
  | ordinary | late | trap | page
  deriving DecidableEq, Repr

/-- A mapped and pinned code page of an activation (R216): first virtual address, bytes, physical address. -/
structure CodePage where
  va : Nat
  size : Nat
  pa : Nat
  deriving DecidableEq, Repr

/-- An activation: its queue entry and what the sequencer and the core keep of it. -/
structure Act where
  reactor : Nat := 0
  kind : ActKind := .ordinary
  q : QEntry := {}
  /-- the arrivals of the join that fired it (R132) -/
  joinq : List QEntry := []
  /-- the reactors that sent what it consumes, in the order of `joinq`, or of `q` alone -/
  from_ : List (Option Nat) := []
  entry : W64 := 0
  restartable : Bool := true
  priv : Bool := false
  /-- Aborts before this run (R400 KIND 6, R387). -/
  attempt : Nat := 0
  /-- Re-runs for a signature mismatch, and the block of the first (R387). -/
  sigRuns : Nat := 0
  sigBlock : W64 := 0
  sigMode : BitVec 2 := 0
  extents : List W128 := []
  frags : List W64 := []
  pins : List Nat := []
  code : List CodePage := []
  held : List Held := []
  /-- Release fences that it has executed (R102). -/
  fences : Nat := 0
  msgs : List Msg := []
  ranges : List (Nat × Nat) := []
  rangeOvf : Bool := false
  tarr : Nat := 0
  tdisp : Nat := 0
  tnows : Nat := 0
  /-- The thread set whose trap a trap activation serves (R368), and the order of its trap entry. -/
  serves : Nat := 0
  serveOrder : Nat := 0
  deriving DecidableEq, Repr

/-- What a thread set is doing. -/
inductive Mode where
  | free
  | run
  | frozen
  /-- waits for the named translation walk or page answer -/
  | parked (id : Nat)
  /-- draining for done (`fin`) or for a commit (R101) -/
  | drain (fin : Bool)
  /-- the drain has ended (R108) -/
  | drained (fin : Bool)
  /-- stalled until the named request is answered -/
  | stalled (id : Nat)
  /-- stopped at a block exit while its reactor moves (R372) -/
  | halted
  deriving DecidableEq, Repr

/-- The registers an older load's trap restores (R185). (log 10, DESIGN CHOICE) -/
structure Regs where
  scalar : BitVec 2048 := 0
  vec : BitVec 8192 := 0
  guards : BitVec 8 := 0x80
  masks : BitVec 64 := 0xFF00000000000000
  fpctl : W64 := 0
  deriving DecidableEq, Repr

/-- A matrix accumulator (R287, R288): 32 rows of 32 elements of 32 bits, element (r, c) at bit 32*(32*r+c), its
poison bits, and its row and column masks. -/
structure Acc where
  elems : BitVec 32768 := 0
  poison : BitVec 1024 := 0
  rows : W32 := 0xFFFFFFFF
  cols : W32 := 0xFFFFFFFF
  deriving DecidableEq, Repr

/-- A core-side watchpoint (R336). -/
structure Watch where
  addr : Nat
  len : Nat
  wr : Bool
  rd : Bool
  deriving DecidableEq, Repr

/-- The Ladybird's running block (R386). -/
structure Block where
  start : Nat
  cf : W32 := 0xFFFFFFFF
  dd : W32 := 0xFFFFFFFF
  deriving DecidableEq, Repr

/-- Where a load stood at its issue, for its trap to go back to (R185): the PC, REPST, the checker's running block, and the
writes recorded until then. -/
structure Spot where
  pc : W64 := 0
  repst : BitVec 48 := 0
  blk : Option Block := none
  hist : Nat := 0
  deriving DecidableEq, Repr

/-- A thread set (Table 10-1, Table 02-3, R362), and what the core keeps for it. (log 10, DESIGN CHOICE) (log 16, DESIGN CHOICE) -/
structure Thread where
  r : Regs := {}
  ctr : W64 := 0
  pc : W64 := 0
  arp : W64 := 0
  repst : BitVec 48 := 0
  spill : BitVec 16384 := 0
  tcause : W64 := 0
  tval : W64 := 0
  tepc : W64 := 0
  tstat : W64 := 0
  /-- SSTAT.VE and SSTAT.VEC (R325). -/
  ve : Bool := false
  vec : BitVec 4 := 0
  acc : Vector Acc 4 := Vector.replicate 4 {}
  watch : List (Nat × Watch) := []
  mode : Mode := .free
  act : Option Act := none
  /-- Writes recorded since it last had no load pending; the history holds those since the oldest pending load (R185). -/
  hist : Nat := 0
  /-- The barrier episode it waits in: id and the episode count at arrival (R246). -/
  bar : Option (Nat × Nat) := none
  /-- Arrivals that its program has been moved past, by a thaw or an aperture write; they stand until their episode releases
  (R359). -/
  left : List (Nat × Nat) := []
  /-- Those of them that a move has left in another cluster: the cluster, id and episode (R359, R372). -/
  away : List (Nat × Nat × Nat) := []
  blk : Option Block := none
  /-- The owner of its private area (R25). -/
  owner : Option Nat := none
  /-- When it froze, for the trap record (R400). -/
  tfroze : Nat := 0
  /-- Activations dispatched to it, so that a late reply finds its own activation only (R187). -/
  gen : Nat := 0
  /-- The late-bound pages that a copy command being issued has found so far (R71). -/
  latch : Option (List W128) := none
  /-- The access whose late-bound page it waits for: its address, and its lane (R73). -/
  miss : W64 × Option Nat := (0, none)
  /-- The activation that it held at a freeze has been served once by a cancelled trap activation (R368). -/
  retried : Bool := false
  deriving DecidableEq, Repr

/-- A counter with its overflow bit (Table 17-5). -/
structure Ctr where
  count : W64 := 0
  ovf : Bool := false
  deriving DecidableEq, Repr

/-- A programmable counter's configuration (Table 17-6). -/
structure CtrCfg where
  oevt : Byte := 0
  tsm : BitVec 4 := 0xF
  evt : Byte := 0
  deriving DecidableEq, Repr

/-- A delay-table entry (Table 21-8). -/
structure Delay where
  src : Nat
  n : Nat := 0
  transit : Nat := 0
  queue : Nat := 0
  run : Nat := 0
  maxtr : Nat := 0
  neg : Nat := 0
  deriving DecidableEq, Repr

/-- A core. -/
structure CoreSt where
  bfmt : Map W64 := []
  /-- Banks being rewritten: bank, new register value, the waiting thread set, and the place of its write among the work in
  flight (R47). -/
  rewriting : List (Nat × W64 × Nat × Nat) := []
  cfg : Map CtrCfg := []
  ctrs : Map Ctr := []
  /-- The late translation table (Table 04-5): slot and entry, most recently used first. -/
  late : List (Nat × W128) := []
  sendq : List Nat := []
  isSealed : Bool := false
  killed : Bool := false
  retired : Bool := false
  delays : List (Nat × Delay) := []
  /-- The thread set that issued last on it (R356). -/
  lastTs : Nat := 3
  /-- an instruction of the core has retired since time last moved on (R404) -/
  issued : Bool := false
  /-- Its kill has been recorded (R388). -/
  killNoted : Bool := false
  deriving DecidableEq, Repr

/-- A barrier register (Table 18-5). -/
structure Bar where
  epi : BitVec 16 := 0
  arr : Nat := 0
  count : Nat := 0
  deriving DecidableEq, Repr

/-- A trap entry: the stopped thread set, whether the backup is tried, and the order of the freeze (R367). -/
structure TrapEntry where
  ts : Nat
  backup : Bool := false
  order : Nat := 0
  /-- The late page to fill when its trap activation, aborted by a late-bound fault, runs again (R72). -/
  latePage : Option (Nat × Nat × BitVec 2) := none
  /-- The trap activation that was aborted and is to run again (R387, R400). -/
  again : Option Act := none
  deriving DecidableEq, Repr

/-- A page request that waits for its answer (R77): request number, virtual page address, access kind, who waits. -/
structure PageReq where
  num : Nat
  /-- its place among the requests of the pod (R77) -/
  order : Nat := 0
  va : Nat
  kind : BitVec 2
  late : Bool := false
  code : Bool := false
  /-- the reactor it is for and its core, and the tag of the waiting activation -/
  reactor : Nat := 0
  core : Nat := 0
  tagt : W64 := 0
  tagm : W32 := 0
  /-- The walk (a flight id) that continues. -/
  walk : Nat := 0
  /-- It has an entry of the pager's queue. -/
  posted : Bool := false
  deriving DecidableEq, Repr

/-- A forwarding entry (Table 19-8). -/
structure Fwd where
  ocore : Nat
  orid : Nat
  ncoord : Nat
  nrid : Nat
  pend : Nat
  born : W32
  deriving DecidableEq, Repr

/-- A cluster and its sequencer. (log 16, DESIGN CHOICE) -/
structure Cluster where
  bars : Map Bar := []
  pairs : Map W64 := []
  trapvec : W64 := 0
  brk : Map W64 := []
  stopreq : W64 := 0
  fwd : List (Nat × Fwd) := []
  traps : List TrapEntry := []
  pageNo : Nat := 0
  reqs : List PageReq := []
  nextOrder : Nat := 0
  /-- The translation cache: virtual page number, leaf level, leaf, its physical address (R63). -/
  tlb : List (Nat × Nat × W128 × Nat) := []
  deriving DecidableEq, Repr

/-- The states of Table 18-3, and MOVE (R372). -/
inductive RState where
  | idle | hold | xlate | pwait | ready | run | settle | stop | move
  deriving DecidableEq, Repr

/-- A pending or requeued activation of a reactor. -/
structure Pending where
  act : Act
  /-- The ring slots that it consumes at dispatch. -/
  slots : List Nat := []
  cancelled : Bool := false
  /-- Cycles waited as ready, and the order in which it became ready (R354, R355). -/
  age : Nat := 0
  order : Nat := 0
  /-- The late page to fill at the retry (R72): virtual address, extent, access kind; and its table entry once found. -/
  latePage : Option (Nat × Nat × BitVec 2) := none
  lateEnt : Option W128 := none
  /-- Unanswered pin messages (R67). -/
  pinsOut : Nat := 0
  deriving DecidableEq, Repr

/-- A reactor (R124). -/
structure Reactor where
  core : Nat := 0
  gang : Nat := 0
  record : Nat := 0
  inst : Nat := 0
  part : Nat := 0
  entry : W64 := 0
  lateEntry : W64 := 0
  prio : Nat := 0
  hostrx : Bool := false
  joins : Vector (Nat × Nat) 16 := Vector.replicate 16 (0, 0)
  exts : Vector W32 10 := Vector.replicate 10 0
  conns : List Conn := []
  /-- Named regions: index, local offset, bytes. -/
  regions : List (Nat × Nat × Nat) := []
  ctl : Nat := 0
  ring : Nat := 0
  depth : Nat := 0
  cq : Nat := 0
  eq : Nat := 0
  banks : List Nat := []
  entries : List Entry := []
  /-- Free ring slots that no connection owns (the spare pool), and queued spare requests (R344). -/
  spares : Nat := 0
  spareReqs : List (Nat × Nat) := []
  ingressFree : Nat := 0
  horizon : Option (W64 × W32) := none
  st : RState := .idle
  pend : Option Pending := none
  /-- Fired or requeued activations that wait behind an earlier entry (R132, R353). -/
  requeued : List Pending := []
  runTs : Option Nat := none
  seqCopy : W32 := 0
  seqMat : W32 := 0
  seqWeev : W32 := 0
  sigMode : BitVec 2 := 0
  dmax : Nat := 0
  stopWant : Bool := false
  stopWhy : Nat := 0
  /-- A stop was in force when its move began, and goes on after it (R401). -/
  kept : Bool := false
  brkAddr : W64 := 0
  /-- the stop at a breakpoint has been released for the next activation -/
  brkPass : Bool := false
  disarming : Bool := false
  /-- the gang's start events are all indexed (R137) -/
  started : Bool := false
  /-- the next activation completes as cancelled (R342) -/
  poisonNext : Bool := false
  nextOrder : Nat := 0
  /-- No core had room for it (R389). -/
  stranded : Bool := false
  /-- the keys that it had before its moves, by which records of an earlier run may name it (R409) -/
  names : List Nat := []
  deriving DecidableEq, Repr

/-- An error record (Table 20-3). -/
structure ErrRec where
  addr : W64 := 0
  tagt : W64 := 0
  tagm : W32 := 0
  peer : W32 := 0
  cause : Byte := 0
  phys : Bool := false
  aux : W32 := 0
  deriving DecidableEq, Repr

/-- A memory-side watchpoint (R337). -/
structure MWatch where
  pa : Nat
  len : Nat
  wr : Bool
  rd : Bool
  owner : Nat
  deriving DecidableEq, Repr

/-- The state of a frame that the pager has withdrawn (R75, R79). -/
inductive FrameSt where
  | withdrawn | filling
  deriving DecidableEq, Repr

/-- A line of the bounce buffer: its address, the bytes written with their offsets in the line (R75), and whether the write
carries poison (R55, R339). -/
structure Bounce where
  pa : Nat
  bytes : List (Nat × Byte)
  poison : Bool := false
  deriving DecidableEq, Repr

/-- A bulkhead: its registers of the management space (Table 23-1) and its controller, gate, cache and trace unit. -/
structure Bulkhead where
  bhpart : W64 := 0
  pcfg : W64 := 0
  proot : W64 := 0
  plpool : W64 := 0
  pager : W64 := 0
  pwrReq : BitVec 2 := 0
  pwrSt : BitVec 2 := 0
  temp : Byte := 0
  thr : Bool := false
  trip : Bool := false
  power : BitVec 16 := 0
  trctl : W64 := 0
  trwp : W64 := 0
  trSeq : BitVec 16 := 0
  /-- Trace records that wait to be written, oldest first (R398). -/
  trWait : List (List Byte) := []
  rpctl : W64 := 0
  feedIdx : Nat := 0
  sideBase : W64 := 0
  attrBase : W64 := 0
  log : Map ErrRec := []
  logN : Nat := 0
  logRead : W64 := 0
  lost : W64 := 0
  corrected : BitVec 48 := 0
  negligible : BitVec 48 := 0
  cksRoot : BitVec 10 := 0
  windows : Map W128 := []
  migs : Map W128 := []
  /-- The NEGLIGIBLE and BOUNDED flags of the lines that each migration entry has copied (Table 03-9). -/
  migFlags : Map Nat := []
  /-- Migration entries whose metadata are beyond correction: what they cover reads at STRUCTURAL severity (R53). -/
  migBad : List Nat := []
  deadMap : List Nat := []
  frames : Map FrameSt := []
  bounce : List Bounce := []
  pinCount : Map Nat := []
  mwatch : List (Nat × MWatch) := []
  reset : Bool := false
  retired : Bool := false
  /-- Every lane of its fabric port is retired (R396). -/
  noPort : Bool := false
  hbCount : W32 := 0
  deriving DecidableEq, Repr

/-- A Cricket channel of a partition on a device (R345). -/
structure Channel where
  ns : Nat := 0
  /-- ns by the channel's own rate, which the slew is measured against -/
  own : Nat := 0
  /-- the slew that the last exchange set, in parts per million (R345) -/
  rate : Nat := 200
  insync : Bool := false
  meas : W32 := 0xFFFFFFFF
  stop : Bool := false
  /-- NSTOP of Table 18-2 -/
  nstop : BitVec 20 := 0
  /-- ns since the last completed exchange -/
  since : Nat := 0
  locked : Bool := false
  /-- The last exchange of each plane: offset and uncertainty. -/
  planes : Map (Int × Nat) := []
  deriving DecidableEq, Repr

/-- A host message as its port's GO took it: the message fields, and the bulkheads that its HWMASK then let pass (R434). -/
structure HostMail where
  target : W64 := 0
  entry : W64 := 0
  args : W64 := 0
  msg3 : W64 := 0
  mask : BitVec 24 := 0
  deriving DecidableEq, Repr

/-- An external input on its way through ingress: a port's message, or the arming that a write of its ARMCTL asks for with the stamp
that it has been given. -/
inductive HostInput where
  | mail (m : HostMail)
  | arm (v : W64) (tagt : W64) (tagm : W32)
  deriving DecidableEq, Repr

/-- A host port (Table 23-1). -/
structure Port where
  target : W64 := 0
  entry : W64 := 0
  args : W64 := 0
  msg3 : W64 := 0
  mbxStatus : BitVec 4 := 0
  mbxBusy : Bool := false
  hwmask : BitVec 24 := 0xFFFFFF
  nres : Bool := false
  bnc : Bool := false
  hole : Bool := false
  ve : Bool := false
  attBusy : Bool := false
  attDone : Bool := false
  attStatus : BitVec 2 := 0
  nonce : BitVec 384 := 0
  rep : BitVec 2560 := 0
  armStatus : BitVec 4 := 0
  armBusy : Bool := false
  armPart : BitVec 15 := 0
  armGang : BitVec 20 := 0
  armDis : Bool := false
  armRec : BitVec 12 := 0
  up : Bool := false
  /-- low parts of registers wider than 64 bits, by offset, as this port wrote them last (R431) -/
  halves : Map W64 := []
  /-- the delay-table entry whose first word the port read last: core, index and all its bits (R403) -/
  delayRead : Option (Nat × Nat × Nat) := none
  /-- what the last CXL.mem read of the port completed with: its data, or CXL poison (R40) -/
  resp : List Byte := []
  respPoison : Bool := false
  deriving DecidableEq, Repr

/-- A device: its device block, its Cricket and its two host ports. -/
structure Device where
  gen : BitVec 16 := 0
  last : Bool := true
  owner : BitVec 2 := 0
  imgver : BitVec 16 := 0
  done : Bool := false
  copy : Bool := false
  idok : Bool := false
  code : Byte := 0
  lead : Nat := 0
  leadStep : Nat := 0
  image : List Byte := []
  flash0 : List Byte := []
  flash1 : List Byte := []
  pcap : BitVec 16 := 9000
  pwrmeas : BitVec 16 := 0
  lowered : Bool := false
  idpub : BitVec 768 := 0
  chan : Map Channel := []
  /-- Cores that a HOSTRX reactor has left, as the host ingress knows them: core and reactor (R375). -/
  moved : List (Nat × Nat) := []
  /-- How many host messages and arming requests ingress has stamped with each T + H (R141, R437). -/
  stamps : Map Nat := []
  ports : Vector Port 2 := Vector.replicate 2 {}
  attQueue : List Nat := []
  powered : Bool := false
  deriving DecidableEq, Repr

/-- A Ladybird signature entry of a partition's code (R176, R386). -/
structure Sig where
  start : Nat
  stop : Nat
  cf : W32
  dd : W32
  loaded : Bool := false
  deriving DecidableEq, Repr

/-- A gang armed and not yet released (R136, R138): its record and id, the keys of its instances in placement order, and whether it
is being disarmed. -/
structure Gang where
  record : Nat
  id : Nat
  keys : List Nat
  going : Bool := false
  deriving DecidableEq, Repr

/-- A partition: its gang counter and the state of its launch records (R134, R136). -/
structure Partition where
  gangCtr : BitVec 20 := 0
  failed : List Nat := []
  lastStatus : Map (BitVec 4) := []
  /-- Gangs armed and not yet released, the latest first. -/
  gangs : List Gang := []
  sigs : List Sig := []
  deriving DecidableEq, Repr

/-- A flit that a link end has still to seal: its header fields and its plain body. -/
structure Plain where
  hdr : W64
  body : BitVec 1792
  deriving DecidableEq, Repr

/-- One end of a link: what it sends and what it receives (R416, R425 to R429). A device's end is keyed by its bulkhead,
the leaf's end of the same link by 32768 more, a link between switches by 65536 + 256 * switch + port. (log 36, DESIGN CHOICE) -/
structure Link where
  /-- PORTSTAT.STATE: 0 down, 1 training, 2 up -/
  up : BitVec 2 := 0
  /-- the link is to begin training after its bulkhead's reset -/
  starts : Bool := false
  lanes : Byte := 0
  width : BitVec 2 := 0
  seq : BitVec 12 := 0
  /-- the retry buffer, oldest first, each flit with its plain text for a retrain -/
  retry : List (Flit × Plain) := []
  /-- flits on their way to the other end -/
  out : List Flit := []
  /-- how many of them, from the oldest, a lane's failure has cut: the sequenced ones are sent again, the others are void (R425) -/
  cut : Nat := 0
  /-- sequenced flits that wait for room in the retry buffer -/
  backlog : List Plain := []
  /-- PORTSTAT.KS -/
  ks : Bool := false
  txCtr : Vector Nat 2 := Vector.replicate 2 0
  /-- the key in each slot, as the count of keys installed before it in this direction -/
  txKey : Vector (Option Nat) 2 := Vector.replicate 2 none
  txGen : Nat := 0
  rxSeq : BitVec 12 := 0xFFF
  rxKey : Vector (Option Nat) 2 := Vector.replicate 2 none
  rxCtr : Vector Nat 2 := Vector.replicate 2 0
  rxGen : Nat := 0
  /-- the slot of the flit last accepted in SEQ order -/
  rxLast : Bool := false
  /-- the greatest SEQ of which the counter is known to have been used -/
  rxTop : BitVec 12 := 0xFFF
  /-- counters of sequenced flits that were sent and have not been accepted: SEQ and counter -/
  rxSeen : List (BitVec 12 × Nat) := []
  waitSeq : Option (BitVec 12) := none
  fails : Nat := 0
  unseqFails : Nat := 0
  retrain : BitVec 16 := 0
  replay : BitVec 16 := 0
  authf : BitVec 16 := 0
  /-- the other end's hold register is full (R418) -/
  hold : Bool := false
  /-- the slots that transaction flits have been granted (R422) -/
  grants : Nat := 0
  deriving DecidableEq, Repr

/-- A link end before anything is said of it. The links between switches are up, as the switches train them before the module leaves
reset. (log 36, DESIGN CHOICE) -/
def Link.fresh (e : Nat) : Link :=
  if e < 65536 then {}
  else { up := 2, lanes := 0xFF, txKey := #v[some 0, some 1], txGen := 2, rxKey := #v[some 0, some 1], rxGen := 2 }

/-- A split record of a combined famo (R420): its members' SRC, TXID and operand, the operation size and the target,
and the SPART and PRIV that they share. -/
structure Split where
  id : Nat
  members : List (W32 × BitVec 16 × W64)
  /-- how many requests each member stands for, where switches before have combined it -/
  counts : List Nat := []
  size : Nat
  pa : Nat
  /-- The output that the combined flit took. -/
  port : Nat := 0
  part : Nat := 0
  priv : Bool := false
  deriving DecidableEq, Repr

/-- A switch (R412, R430): number 17 * plane + i is leaf i below 11, else spine i - 11. (log 36, DESIGN CHOICE) -/
structure Switch where
  /-- its hold registers, by input port -/
  hold : List (Nat × Arrival) := []
  splits : List Split := []
  nextRec : Nat := 0
  hbLast : Map Nat := []
  downDev : List Nat := []
  /-- the flit that has arrived at an input for the coming slot, one at each -/
  inp : List (Nat × Plain) := []
  /-- in its wait buffer, beside the records: flits that it makes itself, which wait for an output: notices, each for a port, and split
  replies -/
  own : List (Option Nat × Plain) := []
  /-- in its wait buffer: famo flits that may still meet others, with the slot of their arrival (R420) -/
  comb : List (Nat × Arrival) := []
  slot : Nat := 0
  /-- the slots in a row in which a device port's flit was not accepted (R422) -/
  refused : Map Nat := []
  failed : Bool := false
  deriving DecidableEq, Repr

/-- The packets of a request on the fabric (R414): SRC and TXID of each, those still on their way, whether they are replies, whether
a switch makes the reply (R421), and, of a combined request, its members in order, each with its operand (R420). -/
structure Wire where
  asks : List (Nat × Nat) := []
  due : List (Nat × Nat) := []
  back : Bool := false
  split : Bool := false
  group : List ((Nat × Nat) × Nat) := []
  deriving DecidableEq, Repr

/-- What a translation walk is for: a formed activation, a miss of the late translation table, or a code page. -/
inductive WalkFor where
  | dispatch (reactor : Nat)
  | lateMiss (ts : Nat) (va : Nat) (xi : Nat) (acc : BitVec 2)
  | code (ts : Nat) (va : Nat)
  /-- a trap activation that a reactor receives for a thread set, or a page-request activation (R77, R368) -/
  | side (reactor : Nat) (serves : Option Nat)
  /-- word 0 of the instruction that a thaw is to skip: the thawing thread set (R329) -/
  | skip (ts : Nat)
  deriving DecidableEq, Repr

/-- A contiguous piece of an access after translation: generic address, physical address, bytes, order class, layout,
tolerate-minor, and the level of the page that maps it. -/
structure Piece where
  va : Nat
  pa : Nat
  n : Nat
  ord : Nat := 1
  layout : Byte := 0
  tm : Bool := false
  lvl : Nat := 0
  deriving DecidableEq, Repr

/-- How an access ended at its target. -/
inductive Result where
  | ok
  | refused (va : Nat)
  | deadPeer (va : Nat)
  | bounceFull (va : Nat)
  | notResident (va : Nat)
  | grave (va : Nat)
  | structural (va : Nat)
  | unmapped (va : Nat)
  | permission (va : Nat)
  | unaligned (va : Nat)
  /-- a private area that another reactor owns by the time the access arrives (R25) -/
  | notOwner (va : Nat)
  deriving DecidableEq, Repr

/-- Where a load's data go (R225, R226, R228, R229), and the scope that it names. -/
structure Dest where
  scope : Nat := 0
  vec : Bool := false
  start : Nat := 0
  width : Nat := 0
  /-- lanes that receive, with the pieces of each -/
  lanes : List (Nat × List Piece) := []
  /-- The gates have admitted its reads, which a withdrawn frame holds (R39, R75). -/
  passed : Bool := false
  deriving DecidableEq, Repr

/-- An atomic at the core: operation code, or compare-and-swap with its expected value (R228, R229). -/
structure Atomic where
  op : Nat := 0
  cas : Bool := false
  signed : Bool := false
  b : W64 := 0
  e : W64 := 0
  size : Nat := 8
  deriving DecidableEq, Repr

/-- A Weevil request (R230 to R234). -/
inductive Weevil where
  | famo (a : Atomic)
  | mcas (p : Nat) (expected : List W64) (new : List W64)
  | lenq (node : Nat)
  /-- lenq after its header update: the link write at the old tail is to come; with the flags of what was read -/
  | link (node old : Nat) (neg bnd : Bool)
  /-- a chase: the key, the nodes read so far, the flags of what was read, and the pointer that the last node gave while
  its translation is still to come -/
  | pchase (key : W64) (hops : Nat) (neg bnd : Bool) (next : Option Nat)
  deriving DecidableEq, Repr

/-- A Weevil's reply: the value for d, the words for a descriptor, how it ended, the unit that found a failure, and the
NEGLIGIBLE and BOUNDED flags (R230). -/
structure WReply where
  v : W64 := 0
  words : List W64 := []
  res : Result := .ok
  unit : Nat := 0
  neg : Bool := false
  bnd : Bool := false
  deriving DecidableEq, Repr

/-- A codebook or scale array that a bank's BFMT names, as judged at issue: its core, scratchpad offset, and whether it
lies in a bank of the layout it must have (R48, R254, R317). -/
structure Table where
  core : Nat := 0
  off : Nat := 0
  ok : Bool := true
  deriving DecidableEq, Repr

/-- A tile operand as judged at issue (R294, R295): its address, its core and scratchpad offset, its pitch, the layout of
its bank, whether every bank it touches accepts it, and the codebook and scales of its bank. -/
structure Tile where
  va : Nat := 0
  core : Nat := 0
  off : Nat := 0
  pitch : Nat := 0
  lay : Nat := 0
  ok : Bool := true
  book : Table := {}
  scv : Bool := false
  scale : Table := {}
  deriving DecidableEq, Repr

/-- An engine command as issued (R290 to R310): its opcode and fields, its operands as judged at issue, and the held
stores it may read (R103). -/
structure Cmd where
  op : Nat
  x : XT
  ta : Tile := {}
  tb : Tile := {}
  /-- the epilogue block of mst: its offset, and whether its bank's layout is accepted -/
  epi : Nat := 0
  epiOk : Bool := true
  /-- elements that a copy moves -/
  n : Nat := 0
  src : List Piece := []
  dst : List Piece := []
  /-- layouts of the two sides of a copy -/
  sl : Nat := 0
  dl : Nat := 0
  copyOk : Bool := true
  sbook : Table := {}
  dbook : Table := {}
  /-- the flight of the copy that a cpm's mma waits for, and what the copy ended with: class, address, unit, flags -/
  dep : Option Nat := none
  copied : Nat × Nat × Nat × Nat := (0, 0, 0, 0)
  vis : List Held := []
  /-- the banks at which a multicast copy of A's bytes, or of a copy's, and of B's skips a receiver: core and bank, as the layouts stood
  at issue (R294, R296) -/
  skipA : List (Nat × Nat) := []
  skipB : List (Nat × Nat) := []
  /-- It does not hold its reactor in SETTLE: a trap or page-request activation issued it, or one that has been cancelled
  (R351). -/
  beside : Bool := false
  /-- The gates have admitted its reads, which a withdrawn frame holds (R39, R75). -/
  passed : Bool := false
  deriving DecidableEq, Repr

/-- What a target gave one lane of a load or atomic: its bytes, how the access ended, the bulkheads that gave NEGLIGIBLE
bits, and where BOUNDED bits were read: generic address and unit (R227). -/
structure Got where
  lane : Nat
  bytes : List Byte := []
  res : Result := .ok
  neg : List Nat := []
  bnd : Option (Nat × Nat) := none
  deriving DecidableEq, Repr

/-- A store on its way to its target (R107, R108): the thread set and its activation, the counter that falls when the last
piece of its instruction is acknowledged and the number of the instruction's first piece, the piece and its bytes, whether
it carries release order and whether that holds at cluster scope or wider, the scope it names, the release fences before it,
the issuer's privilege, and whether it has been performed, and how. -/
structure StoreReq where
  ts : Nat
  gen : Nat := 0
  reactor : Nat := 0
  tag : W64 × W32 := (0, 0)
  ctr : Option Nat := none
  group : Nat := 0
  p : Piece
  bytes : List Byte
  rel : Bool := false
  wide : Bool := true
  scope : Nat := 0
  epoch : Nat := 0
  priv : Bool := false
  performed : Bool := false
  res : Result := .ok
  deriving DecidableEq, Repr

/-- A Weevil operation under way (R230): the thread set and its activation, its Weevil sequence number, its counter and its
destination; the address that it named, the piece that it has come to and what it does there; whether later accesses wait
for its reply, the issuer's privilege, and the reply; the bulkhead whose Weevil has forwarded it, or sends its link write, from there on;
and whether the gate has admitted the read that a withdrawn frame holds (R39, R75). -/
structure WeevilReq where
  ts : Nat
  gen : Nat := 0
  reactor : Nat := 0
  tag : W64 × W32 := (0, 0)
  seq : W32 := 0
  ctr : Nat := 0
  d : Option (Nat × Nat) := none
  va : Nat := 0
  p : Piece
  w : Weevil
  acq : Bool := false
  rel : Bool := false
  scope : Nat := 0
  priv : Bool := false
  reply : Option WReply := none
  via : Option Nat := none
  passed : Bool := false
  deriving DecidableEq, Repr

/-- Work in flight between agents: what a later event of the table acts on. (log 36, DESIGN CHOICE) -/
inductive Flight where
  /-- A load, or an atomic at the core, of a thread set. -/
  | load (ts : Nat) (ctr : Nat) (d : Dest) (at? : Option Atomic) (acq rel : Bool) (snap : Regs) (spot : Spot)
      (data : Option (List Got))
  /-- A store of a thread set. -/
  | store (q : StoreReq)
  /-- A Weevil operation. -/
  | weevil (q : WeevilReq)
  /-- An engine command. -/
  | engine (ts : Nat) (reactor : Nat) (mat : Bool) (seq : W32) (ctr : Nat) (gen : Nat) (tag : W64 × W32) (c : Cmd)
      (priv : Bool)
  /-- An event that waits in its core's send queue (R243). -/
  | event (m : Msg)
  /-- An entry on its way to a reactor. -/
  | entry (reactor : Nat) (q : QEntry) (owner : Owner)
  /-- A walk of the page tables; it waits while a page request of it is unanswered (R70). -/
  | walk (w : WalkFor) (waits : Bool)
  /-- A late walk that came back resident and pinned: the fill to make (R71). -/
  | fill (ts : Nat) (va : Nat) (xi : Nat) (frag : W64)
  /-- A pin message (R62, R67): what the walk is for, the leaf and its level, the virtual address, the leaf entry's place,
  and the answer: 0 admitted, 1 refused, 2 dead peer, 3 malformed. -/
  | pin (w : WalkFor) (leaf : W128) (lvl : Nat) (va : Nat) (entry : Nat) (answer : Option Nat)
  /-- A pager's answer: the request's sender and number, and the thread set that stalls (R78). -/
  | answer (sender : Nat) (num : Nat) (declined : Bool) (ts : Nat)
  | credit (reactor : Nat) (conn : Nat)
  | notice (reactor : Nat) (conn : Nat) (cl : Nat) (slot : Nat)
  /-- An owner's acknowledgement, from its bulkhead. -/
  | noticeAck (cl : Nat) (slot : Nat) (bh : Nat)
  /-- A reactor's move: where to, the thread set that issued it, and its d, start and width (R331). -/
  | move (reactor : Nat) (dst : Nat) (ts : Nat) (d : Nat × Nat)
  | disarm (part : Nat) (gang : Nat) (record : Nat) (ts : Option Nat) (port : Option Nat)
  | timing (dev : Nat) (part : Nat) (plane : Nat) (t1 : Nat) (t2 : Option (Nat × Nat))
  | heldRead (of : Nat)
  /-- A host read of a withdrawn frame, held (R75): port, address, bytes. -/
  | hostRead (port pa n : Nat)
  /-- An external input of a port that ingress holds because its record cannot be written (R408), or an arming that waits (R47). -/
  | ingress (port : Nat) (what : HostInput)
  /-- a freeze that waits for its target: the issuer, the target and the issuer's d (R328) -/
  | freeze (ts target start width : Nat)
  /-- the place of a freeze or thaw that waits, of the activation and the instruction of the thread set that issues it, and whether the
  page that a thaw has to read was declined (R329) -/
  | turn (ts target gen : Nat) (pc : W64) (no : Bool)
  deriving DecidableEq, Repr

/-- An access that crosses the fabric within the step that makes it, a table walk's or a command's (R414): the issuer, its path and
privilege, the bulkhead that asks, the order class of the page, the address, the bytes, and whether they are written. -/
structure Crossing where
  unit : Nat
  path : Nat
  priv : Bool
  bh : Nat
  cls : Nat
  pa : Nat
  bytes : List Byte
  wr : Bool
  deriving DecidableEq, Repr

/-- What the agenda may ask for next: a cycle of a thread set's core (R356), or a step of another agent. -/
inductive Turn where
  | issue (ts : Nat)
  | event (i : Instr)
  deriving DecidableEq, Repr

/-- The pod. (log 16, DESIGN CHOICE) -/
structure State where
  mem : List Host.Cell := []
  poison : List Nat := []
  flips : Map (BitVec 512 × BitVec 64) := []
  /-- Lines that the controllers hold as elided, by address / 64 (R52). -/
  elided : List Nat := []
  /-- Poisoned lines whose elision metadata were lost: they read at STRUCTURAL severity (R52, R53). -/
  lostMeta : List Nat := []
  /-- Lines of the memory-side caches, dirty or clean (R42, R239, R240). -/
  cached : Map Bool := []
  thr : Map Thread := []
  core : Map CoreSt := []
  clu : Map Cluster := []
  reac : Map Reactor := []
  bh : Map Bulkhead := []
  dev : Map Device := []
  part : Map Partition := []
  link : Map Link := []
  sw : Map Switch := []
  flight : Map Flight := []
  nextId : Nat := 0
  /-- The packets of the work in flight that are on the fabric. -/
  wire : Map Wire := []
  /-- The next TXID of a source agent towards a bulkhead, by SRC * 2^15 + bulkhead (R414). -/
  txid : Map Nat := []
  /-- What the step under way has taken across the fabric and has still to send as packets (the model's own field). -/
  crossed : List Crossing := []
  /-- The thread set that issues next. -/
  cur : Nat := 0
  /-- What happens next, as the environment has it (the model's own field). -/
  agenda : List Turn := []
  /-- Every thread set that can issue has had its turn, and time is to move on (the model's own field). -/
  tickDue : Bool := false
  /-- The count that free values are drawn at (the model's own field). -/
  free : Nat := 0
  deriving DecidableEq, Repr

/-- The pod right after reset: every register at the value of its Reset column, every table empty, memory with nothing
listed, every thread set free. (log 10, DESIGN CHOICE) (log 11, DESIGN CHOICE) -/
def State.reset : State := {}

end Sys2Proof.Machine
end

