-- ==== Sys2Proof/Machine/Ops.lean ====
section
/-! DEFINITION. Ops.lean: the named operations over the tables, over memory, over units and registers; taking a trap and
thawing (R164, R165, R329, R362 to R367). -/

namespace Sys2Proof

/-- The value a table holds at a key, `d` where the key is not listed. -/
def Map.get {α : Type} (d : α) : Map α → Nat → α
  | [], _ => d
  | (k, v) :: m, i => if i = k then v else Map.get d m i

/-- The value a table lists at a key. -/
def Map.get? {α : Type} : Map α → Nat → Option α
  | [], _ => none
  | (k, v) :: m, i => if i = k then some v else Map.get? m i

/-- The table with a key set; keys stay in ascending order. -/
def Map.set {α : Type} : Map α → Nat → α → Map α
  | [], i, x => [(i, x)]
  | (k, v) :: m, i, x => if i < k then (i, x) :: (k, v) :: m else if i = k then (i, x) :: m else (k, v) :: Map.set m i x

/-- The table without a key. -/
def Map.del {α : Type} (m : Map α) (i : Nat) : Map α := m.filter fun e => e.1 != i

namespace Machine

/-! ### Memory -/

/-- What a memory byte reads as when it is not listed: zero (R394 for scratchpads; log 4, DESIGN CHOICE for HBM). -/
def emptyByte : Byte := 0

/-- The canonical form of memory: addresses strictly rising, no listed byte equal to `emptyByte`. (log 4, DESIGN CHOICE) -/
def Memory.wf : List Host.Cell → Bool
  | [] => true
  | [(_, v)] => v != emptyByte
  | (a, v) :: (b, w) :: m => v != emptyByte && decide (a < b) && Memory.wf ((b, w) :: m)

/-- One byte of memory. (log 4, DESIGN CHOICE) -/
def Memory.rd : List Host.Cell → Nat → Byte
  | [], _ => emptyByte
  | (k, v) :: m, a => if a = k then v else Memory.rd m a

/-- Memory with one byte written, in canonical form. -/
def Memory.wr : List Host.Cell → Nat → Byte → List Host.Cell
  | [], a, x => if x = emptyByte then [] else [(a, x)]
  | (k, v) :: m, a, x =>
    if a < k then (if x = emptyByte then (k, v) :: m else (a, x) :: (k, v) :: m)
    else if a = k then (if x = emptyByte then m else (a, x) :: m)
    else (k, v) :: Memory.wr m a x

/-- The bytes at `a` to `a + n - 1`. -/
def Memory.rds (m : List Host.Cell) (a n : Nat) : List Byte := (List.range n).map fun i => Memory.rd m (a + i)

/-- Memory with bytes written from `a` upward. -/
def Memory.wrs : List Host.Cell → Nat → List Byte → List Host.Cell
  | m, _, [] => m
  | m, a, x :: xs => Memory.wrs (Memory.wr m a x) (a + 1) xs

/-- A byte string as a number, the first byte least significant (R7). -/
def leNat : List Byte → Nat
  | [] => 0
  | b :: bs => b.toNat + 256 * leNat bs

/-- The `n` bytes of a number, least significant first (R7). -/
def leBytes : Nat → Nat → List Byte
  | 0, _ => []
  | n + 1, v => BitVec.ofNat 8 v :: leBytes n (v / 256)

/-- A little-endian number read raw from memory, with no protection judged: sequencer and controller structures. -/
def State.rawNat (s : State) (a n : Nat) : Nat := leNat (Memory.rds s.mem a n)

/-- Bytes written raw. -/
def State.rawWrite (s : State) (a : Nat) (bs : List Byte) : State := { s with mem := Memory.wrs s.mem a bs }

/-- Bytes that a controller or sequencer writes for itself: a line that they touch is expanded, one that they fill loses its
poison and bit errors, and the bits written are in error no more (R52, R55). (log 61, DESIGN CHOICE) (log 63, DEDUCED) -/
def State.put (s : State) (a : Nat) (bs : List Byte) : State :=
  let fills (k : Nat) : Bool := a ≤ 64 * k && 64 * k + 64 ≤ a + bs.length
  let meets (k : Nat) : Bool := a < 64 * k + 64 && 64 * k < a + bs.length
  let kept (k : Nat) : BitVec 512 := ~~~(BitVec.ofNat 512 ((2 ^ (8 * bs.length) - 1) * 2 ^ (8 * (a - 64 * k)) / 2 ^ (8 * (64 * k - a))))
  { s with mem := Memory.wrs s.mem a bs
           poison := s.poison.filter fun k => !fills k
           lostMeta := s.lostMeta.filter fun k => !fills k
           flips := s.flips.filterMap fun (e : Nat × BitVec 512 × BitVec 64) =>
             if fills e.1 || (meets e.1 && e.2.1 &&& kept e.1 == 0 && e.2.2 == 0) then none
             else if meets e.1 then some (e.1, e.2.1 &&& kept e.1, e.2.2) else some e
           elided := s.elided.filter fun k => !meets k }

/-! ### Coordinates (R4, Table 00-2, Table 02-5) -/

def coreOf (u : Nat) : Nat := u / 4
def cluOf (u : Nat) : Nat := u / 1024
def bhOf (u : Nat) : Nat := u / 4096
def devOf (u : Nat) : Nat := u / 131072
/-- The core index within its cluster (R19). -/
def idxOf (u : Nat) : Nat := u / 4 % 256
def tsOf (u : Nat) : Nat := u % 4
/-- Whether a packed coordinate names a unit (R4). (log 15, DESIGN CHOICE) -/
def unitOk (u : Nat) : Bool := u < 2 ^ 27 && bhOf u % 32 < 24
/-- Cluster of a core key, bulkhead of a core key, bulkhead of a cluster key. -/
def cluOfCore (c : Nat) : Nat := c / 256
def bhOfCore (c : Nat) : Nat := c / 1024
def bhOfClu (c : Nat) : Nat := c / 4
def devOfBh (b : Nat) : Nat := b / 32
/-- The reactor key of a reactor id in a cluster. (log 54, DESIGN CHOICE) -/
def reacKey (clu rid : Nat) : Nat := clu * 65536 + rid
def ridOf (r : Nat) : Nat := r % 65536
def cluOfReac (r : Nat) : Nat := r / 65536

/-- Global physical address of a scratchpad byte of a core (Table 02-5). -/
def spAddr (core off : Nat) : Nat :=
  (core / 32768) * 2 ^ 42 + (core / 1024 % 32) * 2 ^ 37 + 2 ^ 36 + (core % 1024) * 2 ^ 19 + off

/-- The core key and offset of a scratchpad address. -/
def spCore (pa : Nat) : Nat := (pa / 2 ^ 42) * 32768 + (pa / 2 ^ 37 % 32) * 1024 + pa / 2 ^ 19 % 1024
def spOff (pa : Nat) : Nat := pa % 2 ^ 19
def isSp (pa : Nat) : Bool := pa / 2 ^ 36 % 2 = 1
/-- The bulkhead key that holds a physical address. -/
def bhOfPa (pa : Nat) : Nat := (pa / 2 ^ 42) * 32 + pa / 2 ^ 37 % 32
/-- Global physical address of an HBM offset of a bulkhead. -/
def hbmAddr (bh off : Nat) : Nat := (bh / 32) * 2 ^ 42 + (bh % 32) * 2 ^ 37 + off
/-- The packed coordinate that names the target of an address in a record (R378): the core of a scratchpad byte, else
the bulkhead with the lower fields zero. -/
def unitOfPa (pa : Nat) : Nat := if isSp pa then spCore pa * 4 else bhOfPa pa * 4096
/-- Mappable HBM (R33) and existing scratchpad (R32). -/
def hbmEnd : Nat := 0xB2D050000
def paOk (pa : Nat) : Bool :=
  pa / 2 ^ 52 = 0 && pa / 2 ^ 37 % 32 < 24 &&
    (if isSp pa then pa % 2 ^ 36 < 2 ^ 29 else pa % 2 ^ 36 < hbmEnd)

/-! ### Units -/

def State.th (s : State) (u : Nat) : Thread := Map.get {} s.thr u
def State.setTh (s : State) (u : Nat) (t : Thread) : State := { s with thr := Map.set s.thr u t }
def State.modTh (s : State) (u : Nat) (f : Thread → Thread) : State := s.setTh u (f (s.th u))
def State.co (s : State) (c : Nat) : CoreSt := Map.get {} s.core c
def State.modCo (s : State) (c : Nat) (f : CoreSt → CoreSt) : State := { s with core := Map.set s.core c (f (s.co c)) }
def State.cl (s : State) (c : Nat) : Cluster := Map.get {} s.clu c
def State.modCl (s : State) (c : Nat) (f : Cluster → Cluster) : State := { s with clu := Map.set s.clu c (f (s.cl c)) }
def State.re (s : State) (r : Nat) : Reactor := Map.get {} s.reac r
def State.hasRe (s : State) (r : Nat) : Bool := (Map.get? s.reac r).isSome
def State.modRe (s : State) (r : Nat) (f : Reactor → Reactor) : State :=
  if s.hasRe r then { s with reac := Map.set s.reac r (f (s.re r)) } else s
def State.bu (s : State) (b : Nat) : Bulkhead := Map.get {} s.bh b
def State.modBu (s : State) (b : Nat) (f : Bulkhead → Bulkhead) : State := { s with bh := Map.set s.bh b (f (s.bu b)) }
def State.de (s : State) (d : Nat) : Device := Map.get {} s.dev d
def State.modDe (s : State) (d : Nat) (f : Device → Device) : State := { s with dev := Map.set s.dev d (f (s.de d)) }
/-- Port p of the pod: port p mod 2 of device p / 2. -/
def State.po (s : State) (p : Nat) : Port := (s.de (p / 2)).ports[p % 2]?.getD {}
def State.modPo (s : State) (p : Nat) (f : Port → Port) : State :=
  s.modDe (p / 2) fun d => { d with ports := d.ports.set! (p % 2) (f (s.po p)) }
def State.pt (s : State) (p : Nat) : Partition := Map.get {} s.part p
def State.modPt (s : State) (p : Nat) (f : Partition → Partition) : State :=
  { s with part := Map.set s.part p (f (s.pt p)) }
def State.li (s : State) (l : Nat) : Link := Map.get (Link.fresh l) s.link l
def State.modLi (s : State) (l : Nat) (f : Link → Link) : State := { s with link := Map.set s.link l (f (s.li l)) }
def State.swi (s : State) (w : Nat) : Switch := Map.get {} s.sw w
def State.modSw (s : State) (w : Nat) (f : Switch → Switch) : State := { s with sw := Map.set s.sw w (f (s.swi w)) }

/-- The thread set that issues. -/
def State.me (s : State) : Thread := s.th s.cur
def State.modMe (s : State) (f : Thread → Thread) : State := s.modTh s.cur f
/-- Its activation. -/
def State.act (s : State) (u : Nat) : Act := (s.th u).act.getD {}
def State.modAct (s : State) (u : Nat) (f : Act → Act) : State :=
  s.modTh u fun t => { t with act := t.act.map f }

/-- Puts new work in flight, numbered in issue order. -/
def State.emit (s : State) (f : Flight) : State :=
  { s with flight := s.flight ++ [(s.nextId, f)], nextId := s.nextId + 1 }
/-- Changes, or ends, work in flight. -/
def State.setFl (s : State) (id : Nat) (f : Flight) : State :=
  { s with flight := s.flight.map fun e => if e.1 = id then (id, f) else e }
def State.endFl (s : State) (id : Nat) : State := { s with flight := s.flight.filter fun e => e.1 != id }
def State.fl? (s : State) (id : Nat) : Option Flight := Map.get? s.flight id

/-- A free value (log 1, DESIGN CHOICE), and the state whose count has moved on. -/
def State.draw (s : State) : W64 × State := (Config.freeWord s.free, { s with free := s.free + 1 })

/-! ### Registers of the management space that other units read -/

/-- The partition of a bulkhead: BHPART.V and PART (Table 20-9). -/
def State.partOf? (s : State) (bh : Nat) : Option Nat :=
  let v := (s.bu bh).bhpart
  if v.getLsbD 63 then some ((v.extractLsb' 48 15).toNat) else none
def State.partOf (s : State) (bh : Nat) : Nat := (s.partOf? bh).getD 0x7FFF
/-- PCFG.RUN of a bulkhead (Table 23-5). -/
def State.running (s : State) (bh : Nat) : Bool := (s.bu bh).pcfg.getLsbD 63
/-- The time base of a bulkhead's partition on its device, in ns, and local time T in ticks (R345). -/
def State.ns (s : State) (bh : Nat) : Nat := (Map.get {} (s.de (devOfBh bh)).chan (s.partOf bh)).ns
def State.ticks (s : State) (bh : Nat) : Nat := s.ns bh / 2 ^ ((s.bu bh).pcfg.extractLsb' 0 5).toNat
def State.boundE (s : State) (bh : Nat) : Nat := ((s.bu bh).pcfg.extractLsb' 5 19).toNat
def State.boundH (s : State) (bh : Nat) : Nat := ((s.bu bh).pcfg.extractLsb' 24 24).toNat

/-! ### The program counter -/

/-- Advances the issuing thread set past an instruction of `n` bytes. -/
def advance (n : Nat) (s : State) : State := s.modMe fun t => { t with pc := t.pc + BitVec.ofNat 64 n }
/-- Sets its program counter. -/
def jump (a : W64) (s : State) : State := s.modMe fun t => { t with pc := a }

/-! ### Taking a trap -/

/-- Whether a thread set has a load in flight (R184, R185). (log 29, DEDUCED) -/
def State.loading (s : State) (u : Nat) : Bool :=
  s.flight.any fun e => match e.2 with
    | .load ts .. => ts = u
    | _ => false

/-- Whether a Weevil operation of a thread set, issued before `id`, still owes its register result. -/
def State.owed (s : State) (u id : Nat) : Bool :=
  s.flight.any fun e => match e.2 with
    | .weevil q => q.ts == u && q.gen == (s.th u).gen && q.d.isSome && e.1 < id
    | _ => false

/-- TSTAT of a thread set (Table 19-2). -/
def Thread.statWord (t : Thread) : W64 :=
  let a := t.act.getD {}
  (BitVec.ofBool a.restartable ++ (BitVec.ofBool a.priv ++ t.repst)).setWidth 64

/-- TCAUSE (Table 19-1): the code, and the failing lane of a vector-class access. -/
def causeWord (code : Nat) (lane : Option Nat) : W64 :=
  match lane with
  | none => BitVec.ofNat 64 code
  | some l => BitVec.ofNat 64 (code + 256 * l + 2048)

/-- Whether a cause sends a trap activation to a buddy (Table 19-3). -/
def causeHasBuddy (code : Nat) : Bool := code != 0x10 && code != 0x11

/-- Freezes a thread set at its program counter with the trap registers written (R362, R364), and, where the cause has a
buddy, places its trap entry in the cluster's trap queue (R367). -/
def freezeAt (u code : Nat) (lane : Option Nat) (val : W64) (s : State) : State :=
  let s := s.modTh u fun t =>
    { t with mode := .frozen, tcause := causeWord code lane, tval := val, tepc := t.pc, tstat := t.statWord,
             hist := 0, retried := false, tfroze := s.ns (bhOf u) }
  if causeHasBuddy code then
    s.modCl (cluOf u) fun c =>
      { c with traps := c.traps ++ [{ ts := u, order := c.nextOrder }], nextOrder := c.nextOrder + 1 }
  else s

/-- Whether earlier work of a thread set is still to complete before a trap or a freeze: a load, or a Weevil operation's
register result (R185, R196). -/
def State.awaits (s : State) (u : Nat) : Bool := s.loading u || s.owed u s.nextId

/-- A precise trap of the issuing thread set (R164, R165): while an older load, or a Weevil operation's register result,
is in flight the instruction waits, so that every earlier instruction has completed (R185). -/
def trap (code : Nat) (val : W64) (s : State) : State :=
  if s.awaits s.cur then s else freezeAt s.cur code none val s

/-- The same for the lowest failing lane of a vector-class access (R226, Table 19-1). -/
def trapLane (code lane : Nat) (val : W64) (s : State) : State :=
  if s.awaits s.cur then s else freezeAt s.cur code (some lane) val s

/-- Withdraws what serves a thread set's freeze and has not been dispatched: its trap entry, and the translation of its trap
activation (R371). -/
def dropTrap (u : Nat) (s : State) : State :=
  ({ s with flight := s.flight.filter fun e => match e.2 with
      | .walk (.side _ (some v)) _ => v != u
      | _ => true }).modCl (cluOf u) fun c => { c with traps := c.traps.filter fun e => e.ts != u }

/-- Resumes a frozen thread set at its program counter, which holds TEPC (R329, R370). -/
def unfreeze (u : Nat) (s : State) : State := dropTrap u (s.modTh u fun t => { t with mode := .run })

/-- The reserved-code trap (R165): TVAL holds word 0 and the failing check. -/
def reservedTrap (w0 : W32) (check : Nat) (s : State) : State :=
  trap 0x01 (BitVec.ofNat 64 (w0.toNat + check * 2 ^ 32)) s

end Machine
end Sys2Proof
end

