-- ==== Sys2Proof/Machine/Flags.lean ====
section
/-! DEFINITION. Flags.lean: guards and masks (R149 to R151, R157, R186), compare conditions (Table 11-3), dependence
counters (R187), the FPCTL flags (Table 10-2) and the view errors of SSTAT (R324, R325). -/

namespace Sys2Proof.Machine

/-- Guard gn (R186: g7 reads 1). -/
def Regs.g (r : Regs) (n : Nat) : Bool := n % 8 = 7 || r.guards.getLsbD (n % 8)
/-- Mask kn (R186: k7 reads 0xFF). -/
def Regs.k (r : Regs) (n : Nat) : BitVec 8 := if n % 8 = 7 then 0xFF else r.masks.extractLsb' (8 * (n % 8)) 8
/-- Writes guard gn; a write to g7 is discarded. -/
def Regs.setG (r : Regs) (n : Nat) (v : Bool) : Regs :=
  if n % 8 = 7 then r
  else { r with guards := if v then r.guards ||| (1#8 <<< (n % 8)) else r.guards &&& ~~~(1#8 <<< (n % 8)) }
/-- Writes mask kn; a write to k7 is discarded. -/
def Regs.setK (r : Regs) (n : Nat) (v : BitVec 8) : Regs :=
  if n % 8 = 7 then r
  else { r with masks := (r.masks &&& ~~~(0xFF#64 <<< (8 * (n % 8)))) ||| (v.setWidth 64 <<< (8 * (n % 8))) }

/-- A guard pair destination (R157, R210): the condition, then its complement. -/
def Regs.setPair (r : Regs) (p q : Nat) (v : Bool) : Regs := (r.setG p v).setG q (!v)
/-- A mask pair destination on the selected lanes (R157, R270): other lanes of both masks keep their bits. -/
def Regs.setKPair (r : Regs) (p q : Nat) (sel v : BitVec 8) : Regs :=
  let r := r.setK p ((r.k p &&& ~~~sel) ||| (v &&& sel))
  r.setK q ((r.k q &&& ~~~sel) ||| (~~~v &&& sel))

/-- The guard of a scalar-class instruction (R149). -/
def Regs.guardTrue (r : Regs) (g : Guard) : Bool := (r.g g.idx.toNat) ^^ g.neg
/-- The lanes a vector-class instruction selects (R149). -/
def Regs.lanes (r : Regs) (g : Guard) : BitVec 8 := if g.neg then ~~~(r.k g.idx.toNat) else r.k g.idx.toNat

/-- A pattern as two's complement of `n` bits. -/
def sgn (v n : Nat) : Int := if v < 2 ^ (n - 1) then (v : Int) else (v : Int) - 2 ^ n
/-- An integer modulo 2^n. -/
def wrap (n : Nat) (i : Int) : Nat := (i % (2 ^ n : Int)).toNat

/-- The conditions of the compares at width N (Table 11-3), numbered eq, ne, lt, le, ltu, leu. -/
inductive Cond where
  | eq | ne | lt | le | ltu | leu
  deriving DecidableEq, Repr

def Cond.holds (c : Cond) (n a b : Nat) : Bool :=
  match c with
  | .eq => a == b
  | .ne => a != b
  | .lt => sgn a n < sgn b n
  | .le => sgn a n ≤ sgn b n
  | .ltu => a < b
  | .leu => a ≤ b

/-! ### Dependence counters (R187) -/

def Thread.c (t : Thread) (n : Nat) : Nat := (t.ctr.extractLsb' (8 * (n % 8)) 8).toNat
def Thread.setC (t : Thread) (n v : Nat) : Thread :=
  { t with ctr := (t.ctr &&& ~~~(0xFF#64 <<< (8 * (n % 8)))) ||| (BitVec.ofNat 64 (v % 256) <<< (8 * (n % 8))) }
/-- One more outstanding on a counter. -/
def State.incC (s : State) (u n : Nat) : State := s.modTh u fun t => t.setC n (t.c n + 1)
/-- One fewer outstanding. -/
def State.decC (s : State) (u n : Nat) : State := s.modTh u fun t => t.setC n (t.c n - 1)

/-! ### FPCTL flags (Table 10-2) -/

/-- A set of exception flags, in the bit order of FPCTL [4:0]. -/
structure FFlags where
  nv : Bool := false
  dz : Bool := false
  of : Bool := false
  uf : Bool := false
  nx : Bool := false
  deriving DecidableEq, Repr

def FFlags.or (a b : FFlags) : FFlags :=
  ⟨a.nv || b.nv, a.dz || b.dz, a.of || b.of, a.uf || b.uf, a.nx || b.nx⟩
/-- As FPCTL [4:0], STICKY [4:0] and completion-entry flags hold them: NV lowest. -/
def FFlags.bits (f : FFlags) : BitVec 5 :=
  BitVec.ofBool f.nx ++ (BitVec.ofBool f.uf ++ (BitVec.ofBool f.of ++ (BitVec.ofBool f.dz ++ BitVec.ofBool f.nv)))
/-- raise_flags: ORs the set into FPCTL (R13, R188). -/
def Regs.raise (r : Regs) (f : FFlags) : Regs := { r with fpctl := r.fpctl ||| f.bits.setWidth 64 }
/-- FPCTL.RM: 0 RNE, 1 RTZ, 2 RDN, 3 RUP. -/
def Regs.rm (r : Regs) : Nat := (r.fpctl.extractLsb' 8 2).toNat

/-! ### View errors (R324, R325) -/

/-- A view error of the issuing thread set: SSTAT.VE set, its cause in SSTAT.VEC. -/
def viewError (cause : Nat) (s : State) : State :=
  s.modMe fun t => { t with ve := true, vec := BitVec.ofNat 4 cause }

end Sys2Proof.Machine
end

