-- ==== Sys2Proof/WellFormed.lean ====
section
/-! DEFINITION. WellFormed.lean: the fields as words, the opcode map with its forms (R162, R163), and decode checks
1 to 6 of Table 08-14. -/

namespace Sys2Proof

/-- An operand field as its 16 bits (Table 08-10). -/
def Slot.bits (s : Slot) : BitVec 16 := s.file ++ (BitVec.ofBool s.stag ++ (s.wm1 ++ s.start))
/-- The operand field of 16 bits (Table 08-10). -/
def Slot.ofBits (x : BitVec 16) : Slot :=
  ⟨x.extractLsb' 14 2, x.getLsbD 13, x.extractLsb' 9 4, x.extractLsb' 0 9⟩
/-- The width of a slice operand in slices, 1 to 16. -/
def Slot.width (s : Slot) : Nat := s.wm1.toNat + 1

/-- Word 0 [31:14] of base operands b, a, d. -/
def hiOf (b a d : BitVec 6) : BitVec 18 := b ++ (a ++ d)
def B3.ofHi (hi : BitVec 18) (lit : Option (BitVec 64)) : B3 :=
  ⟨hi.extractLsb' 12 6, hi.extractLsb' 6 6, hi.extractLsb' 0 6, lit⟩
def B3.hi (o : B3) : BitVec 18 := hiOf o.b o.a o.d
def BU.ofHi (hi : BitVec 18) : BU := ⟨hi.extractLsb' 6 6, hi.extractLsb' 0 6⟩
def BU.hi (o : BU) : BitVec 18 := hiOf 0 o.a o.d
def BI.ofHi (hi : BitVec 18) : BI := ⟨hi.extractLsb' 6 12, hi.extractLsb' 0 6⟩
def BI.hi (o : BI) : BitVec 18 := o.imm ++ o.d
def BC.ofHi (hi : BitVec 18) (lit : Option (BitVec 64)) : BC :=
  ⟨hi.extractLsb' 12 6, hi.extractLsb' 6 6, hi.extractLsb' 3 3, hi.extractLsb' 0 3, lit⟩
def BC.hi (o : BC) : BitVec 18 := hiOf o.b o.a (o.q ++ o.p)

/-- Word 2 in the arithmetic layout (Table 08-7). -/
def XA.w2 (x : XA) : BitVec 32 := x.ty ++ (x.mod ++ x.c.bits)
def XA.ofWords (v : BitVec 2) (d a b : Slot) (w2 : BitVec 32) (lit : Option (BitVec 64)) : XA :=
  ⟨v, d, a, b, w2.extractLsb' 28 4, w2.extractLsb' 16 12, Slot.ofBits (w2.extractLsb' 0 16), lit⟩
/-- Word 2 in the memory layout (Table 08-8). -/
def XM.w2 (x : XM) : BitVec 32 := x.ty ++ (x.off ++ (x.z ++ (x.op ++ (x.scope ++ (x.ord ++ x.ctr)))))
def XM.ofWords (v : BitVec 2) (d a b : Slot) (w2 : BitVec 32) (lit : Option (BitVec 64)) : XM :=
  ⟨v, d, a, b, w2.extractLsb' 28 4, w2.extractLsb' 16 12, w2.extractLsb' 12 4, w2.extractLsb' 8 4,
    w2.extractLsb' 5 3, w2.extractLsb' 3 2, w2.extractLsb' 0 3, lit⟩
/-- Word 2 in the matrix layout (Table 08-9). -/
def XT.w2 (x : XT) : BitVec 32 :=
  BitVec.ofBool x.mcB ++ (BitVec.ofBool x.mcA ++ (BitVec.ofBool x.masks ++ (BitVec.ofBool x.zf ++
    (x.k ++ (x.ctl ++ (BitVec.ofBool x.tr ++ (x.ctr ++ (x.bty ++ x.aty))))))))
def XT.ofWords (v : BitVec 2) (d a b : Slot) (w2 : BitVec 32) (lit : Option (BitVec 64)) : XT :=
  ⟨v, d, a, b, w2.getLsbD 31, w2.getLsbD 30, w2.getLsbD 29, w2.getLsbD 28, w2.extractLsb' 16 12,
    w2.extractLsb' 12 4, w2.getLsbD 11, w2.extractLsb' 8 3, w2.extractLsb' 4 4, w2.extractLsb' 0 4, lit⟩

/-- The fields of an instruction's words before any check: a base form (word 0 [31:14] whole) or an extended form. -/
inductive Raw where
  | base (op : BitVec 8) (g : Guard) (hi : BitVec 18) (lit : Option (BitVec 64))
  | ext (op : BitVec 8) (g : Guard) (v : BitVec 2) (d a b : Slot) (w2 : BitVec 32) (lit : Option (BitVec 64))
  deriving DecidableEq, Repr

/-- What an instruction accepts in an extended operand field (R157, R158, Tables 12-1, 15-2, 16-1, 17-1). -/
inductive Use where
  | none        -- must be zero (check 6)
  | sc          -- scalar operand
  | scL         -- scalar operand or literal
  | scOpt       -- scalar operand or literal where BP = 1, else zero (send b)
  | addr        -- scalar operand of width 16, no literal
  | vec         -- vector operand
  | vecL        -- vector operand or literal
  | vecZ        -- vector operand or zero (vld b, vst d)
  | vecScL      -- vector operand, scalar operand or literal (vqcb b)
  | either      -- scalar or vector operand (smov, spill, fill)
  | gpair       -- file 0b10, two indices
  | gone        -- file 0b10, one index
  | gbyte       -- scalar operand, or file 0b10 naming the whole guard byte (gmov)
  | acc         -- accumulator
  | ctl         -- a control field judged by the instruction's own rule
  | ignored     -- nop's literal position
  deriving DecidableEq, Repr

/-- The base form of an opcode (Table 08-12). -/
inductive BaseForm where
  | reserved | allZero | bj | bi | b3 | b3Pair | unary | target | callx | icmp
  deriving DecidableEq, Repr

/-- One row of the opcode map: base form, extended operand uses, accepted type codes. -/
structure OpRow where
  first : Nat
  last : Nat
  base : BaseForm
  ext : Bool
  d : Use
  a : Use
  b : Use
  c : Use
  types : List Nat
  deriving DecidableEq, Repr

/-- Tables 08-12 and 08-13 with the operand rules of chapters 10 to 17, rows of opcodes that share a shape. A type code where the
type has no meaning fails check 4, of an extended nop too, whose word 2 is zero as a whole (R159, R213). (log 86, DEDUCED) -/
def opRows : List OpRow :=
  [⟨0x00, 0x00, .allZero, true, .none, .none, .ignored, .none, [0]⟩,
   ⟨0x01, 0x01, .bj, false, .none, .none, .none, .none, [0]⟩,
   ⟨0x02, 0x02, .target, true, .none, .sc, .none, .none, [0]⟩,
   ⟨0x03, 0x03, .bj, false, .none, .none, .none, .none, [0]⟩,
   ⟨0x04, 0x04, .callx, true, .sc, .sc, .none, .none, [0]⟩,
   ⟨0x05, 0x05, .target, true, .none, .sc, .none, .none, [0]⟩,
   ⟨0x06, 0x06, .reserved, true, .ctl, .none, .scL, .none, [0]⟩,
   ⟨0x07, 0x07, .allZero, true, .none, .none, .none, .none, [0]⟩,
   ⟨0x10, 0x1C, .b3, true, .sc, .sc, .scL, .none, [0, 1, 9]⟩,
   ⟨0x1D, 0x1E, .unary, true, .sc, .sc, .none, .none, [0, 1, 9]⟩,
   ⟨0x1F, 0x27, .b3, true, .sc, .sc, .scL, .none, [0, 1, 9]⟩,
   ⟨0x28, 0x2A, .unary, true, .sc, .sc, .none, .none, [0, 1, 9]⟩,
   ⟨0x2B, 0x2C, .reserved, true, .sc, .sc, .scL, .none, [0, 1, 9]⟩,
   ⟨0x2D, 0x2E, .reserved, true, .sc, .sc, .scL, .sc, [0, 1, 9]⟩,
   ⟨0x2F, 0x2F, .unary, true, .sc, .sc, .none, .none, [0, 1, 9]⟩] ++
  [⟨0x30, 0x30, .bi, true, .sc, .none, .scL, .none, [0, 1, 9]⟩,
   ⟨0x31, 0x31, .b3Pair, true, .sc, .sc, .scL, .none, [0, 1, 9]⟩,
   ⟨0x32, 0x32, .reserved, true, .sc, .sc, .scL, .gone, [0, 1, 9]⟩,
   ⟨0x33, 0x38, .icmp, true, .gpair, .sc, .scL, .none, [0, 1, 9]⟩,
   ⟨0x39, 0x39, .reserved, true, .gpair, .gone, .gone, .ctl, [0]⟩,
   ⟨0x3A, 0x3A, .reserved, true, .gbyte, .gbyte, .none, .none, [0]⟩,
   ⟨0x3B, 0x3B, .reserved, true, .either, .either, .scL, .none, [0, 1, 9]⟩,
   ⟨0x3C, 0x3C, .reserved, true, .none, .either, .scL, .none, [0]⟩,
   ⟨0x3D, 0x3D, .reserved, true, .either, .none, .scL, .none, [0]⟩,
   ⟨0x3E, 0x3E, .bi, false, .none, .none, .none, .none, [0]⟩] ++
  [⟨0x40, 0x40, .reserved, true, .sc, .addr, .none, .none, [0, 1, 9]⟩,
   ⟨0x41, 0x41, .reserved, true, .none, .addr, .scL, .none, [0, 1, 9]⟩,
   ⟨0x42, 0x42, .reserved, true, .vec, .addr, .vecZ, .none, [0, 1, 9]⟩,
   ⟨0x43, 0x43, .reserved, true, .vecZ, .addr, .vecL, .none, [0, 1, 9]⟩,
   ⟨0x44, 0x46, .reserved, true, .sc, .addr, .scL, .none, [0, 1, 9]⟩,
   ⟨0x47, 0x47, .reserved, true, .sc, .addr, .addr, .none, [0, 1, 9]⟩,
   ⟨0x48, 0x48, .reserved, true, .none, .addr, .scL, .none, [0, 1, 9]⟩,
   ⟨0x49, 0x49, .reserved, true, .sc, .addr, .scL, .none, [0, 1, 9]⟩,
   ⟨0x4A, 0x4A, .reserved, true, .none, .none, .scL, .none, [0]⟩,
   ⟨0x4B, 0x4C, .reserved, true, .none, .none, .none, .none, [0]⟩,
   ⟨0x4D, 0x4D, .reserved, true, .sc, .addr, .none, .none, [0]⟩,
   ⟨0x4E, 0x4F, .reserved, true, .none, .addr, .scL, .none, [0]⟩,
   ⟨0x60, 0x60, .reserved, true, .ctl, .sc, .scOpt, .none, [0]⟩,
   ⟨0x61, 0x61, .reserved, true, .none, .sc, .scL, .none, [0]⟩,
   ⟨0x62, 0x63, .reserved, true, .sc, .none, .none, .none, [0]⟩,
   ⟨0x64, 0x64, .reserved, true, .sc, .sc, .none, .none, [0]⟩,
   ⟨0x65, 0x65, .reserved, true, .sc, .sc, .scL, .none, [0]⟩,
   ⟨0x66, 0x66, .reserved, true, .sc, .sc, .none, .none, [0]⟩,
   ⟨0x67, 0x67, .reserved, true, .none, .none, .scL, .none, [0]⟩] ++
  [⟨0x70, 0x73, .b3, true, .vec, .vec, .vecL, .none, [0, 1, 9]⟩,
   ⟨0x74, 0x74, .b3, true, .vec, .vec, .vecL, .vec, [0, 1, 9]⟩,
   ⟨0x75, 0x76, .b3, true, .vec, .vec, .vecL, .none, [0, 1, 9]⟩,
   ⟨0x77, 0x78, .unary, true, .vec, .vec, .none, .none, [0, 1, 9]⟩,
   ⟨0x79, 0x7F, .b3, true, .vec, .vec, .vecL, .none, [0, 1, 9]⟩,
   ⟨0x80, 0x80, .reserved, true, .vec, .vec, .none, .none, [0, 1]⟩,
   ⟨0x81, 0x81, .reserved, true, .vec, .vec, .vecL, .vec, [0, 1]⟩,
   ⟨0x82, 0x83, .reserved, true, .vec, .vec, .vecL, .none, [0, 1, 9]⟩,
   ⟨0x84, 0x84, .reserved, true, .gpair, .vec, .vecL, .ctl, [0, 1, 9]⟩,
   ⟨0x85, 0x85, .reserved, true, .vec, .vec, .vecL, .gone, [0, 1, 9]⟩,
   ⟨0x86, 0x86, .unary, true, .vec, .vec, .none, .none, [0, 1, 9]⟩,
   ⟨0x87, 0x87, .reserved, true, .vec, .none, .scL, .none, [0, 1, 9]⟩,
   ⟨0x88, 0x88, .reserved, true, .vec, .vec, .vecL, .sc, [0, 1, 9]⟩,
   ⟨0x89, 0x89, .b3, true, .vec, .vec, .vecL, .none, [0, 1, 9]⟩,
   ⟨0x8A, 0x8A, .reserved, true, .vec, .vec, .vecL, .ctl, [0, 1, 9]⟩,
   ⟨0x8B, 0x8B, .reserved, true, .sc, .vec, .none, .ctl, [0, 1, 9]⟩] ++
  [⟨0x90, 0x92, .b3, true, .vec, .vec, .vecL, .none, [2, 3, 4]⟩,
   ⟨0x93, 0x93, .b3, true, .vec, .vec, .vecL, .vec, [2, 3, 4]⟩,
   ⟨0x94, 0x95, .b3, true, .vec, .vec, .vecL, .none, [2, 3, 4]⟩,
   ⟨0x96, 0x97, .unary, true, .vec, .vec, .none, .none, [2, 3, 4]⟩,
   ⟨0x98, 0x98, .reserved, true, .gpair, .vec, .vecL, .ctl, [2, 3, 4]⟩,
   ⟨0x99, 0x99, .reserved, true, .vec, .vec, .none, .ctl, [0, 1, 2, 3, 4, 5, 6, 8]⟩,
   ⟨0x9A, 0x9D, .unary, true, .vec, .vec, .none, .none, [2, 3, 4]⟩,
   ⟨0x9E, 0x9E, .reserved, true, .vec, .vec, .none, .none, [2, 3, 4, 5, 6]⟩,
   ⟨0x9F, 0x9F, .reserved, true, .vec, .vec, .vecScL, .ctl, [2, 3, 4]⟩,
   ⟨0xA0, 0xA0, .reserved, true, .sc, .vec, .none, .none, [2, 3, 4, 5, 6]⟩,
   ⟨0xA1, 0xA1, .reserved, true, .sc, .vec, .none, .ctl, [2, 3, 4]⟩] ++
  [⟨0xB0, 0xB0, .reserved, true, .acc, .none, .none, .none, []⟩,
   ⟨0xB1, 0xB1, .reserved, true, .acc, .addr, .addr, .none, []⟩,
   ⟨0xB2, 0xB3, .reserved, true, .acc, .addr, .scL, .none, []⟩,
   ⟨0xB4, 0xB4, .reserved, true, .acc, .none, .scL, .none, []⟩,
   ⟨0xB5, 0xB5, .reserved, true, .vec, .acc, .scL, .none, []⟩,
   ⟨0xB6, 0xB6, .reserved, true, .acc, .vec, .scL, .none, []⟩,
   ⟨0xB7, 0xB7, .reserved, true, .addr, .addr, .scL, .none, []⟩,
   ⟨0xB8, 0xB8, .reserved, true, .acc, .addr, .addr, .none, []⟩,
   ⟨0xB9, 0xB9, .reserved, true, .none, .addr, .addr, .none, []⟩,
   ⟨0xBA, 0xBA, .reserved, true, .sc, .acc, .scL, .none, []⟩,
   ⟨0xBB, 0xBC, .reserved, true, .acc, .addr, .none, .none, []⟩] ++
  [⟨0xD0, 0xD0, .reserved, true, .sc, .none, .scL, .none, [0]⟩,
   ⟨0xD1, 0xD1, .reserved, true, .none, .sc, .scL, .none, [0]⟩,
   ⟨0xD2, 0xD2, .reserved, true, .sc, .sc, .none, .none, [0]⟩,
   ⟨0xD3, 0xD3, .reserved, true, .sc, .sc, .scL, .none, [0]⟩,
   ⟨0xD4, 0xD4, .reserved, true, .none, .none, .scL, .none, [0]⟩,
   ⟨0xD5, 0xD6, .reserved, true, .sc, .sc, .scL, .none, [0]⟩,
   ⟨0xD7, 0xD7, .reserved, true, .sc, .none, .scL, .none, [0]⟩,
   ⟨0xD8, 0xD9, .reserved, true, .none, .sc, .scL, .none, [0]⟩,
   ⟨0xDA, 0xDA, .reserved, true, .sc, .sc, .scL, .none, [0]⟩,
   ⟨0xDB, 0xDC, .reserved, true, .sc, .none, .scL, .none, [0]⟩,
   ⟨0xDD, 0xDD, .reserved, true, .none, .sc, .scL, .none, [0]⟩]

/-- The row of an opcode; `none` where R162 leaves the number unassigned. -/
def opRow (op : BitVec 8) : Option OpRow := opRows.find? fun r => r.first ≤ op.toNat && op.toNat ≤ r.last

/-- The vector class (R149): vld, vst and opcodes 0x70 to 0xA1. -/
def isVectorOp (op : BitVec 8) : Bool :=
  op == 0x42 || op == 0x43 || (0x70 ≤ op.toNat && op.toNat ≤ 0xA1)
/-- The memory layout of word 2 (R156). -/
def isMemOp (op : BitVec 8) : Bool := 0x40 ≤ op.toNat && op.toNat ≤ 0x67
/-- The matrix layout of word 2 (R156). -/
def isMatOp (op : BitVec 8) : Bool := 0xB0 ≤ op.toNat && op.toNat ≤ 0xBC

/-- Whether an instruction with this use of operand b takes a literal there (R155, R160); one that takes operand b only as a
register or a guard takes none. (log 102, DESIGN CHOICE) -/
def Use.takesLit : Use → Bool
  | .scL | .scOpt | .vecL | .vecScL | .ignored => true
  | _ => false

/-- Check 5 on one operand field (R158); `stg` leaves a staggered operand's range to check 7 (R164). -/
def Use.bad5 (u : Use) (stg : Bool) (s : Slot) : Bool :=
  let scOk := s.file == 0 && (s.start.toNat + s.width ≤ 512 || (stg && s.stag))
  let vecOk := s.file == 1 && ((s.start.toNat < 256 && s.start.toNat + s.width ≤ 256) || (stg && s.stag))
  match u with
  | .none | .ctl | .ignored => false
  | .sc | .scL | .scOpt => !scOk
  | .addr => !(scOk && s.width == 16)
  | .vec | .vecL => !vecOk
  | .vecZ => !(vecOk || s.bits == 0)
  | .vecScL | .either => !(scOk || vecOk)
  | .gpair | .gone => !(s.file == 2)
  | .gbyte => !(scOk || s.file == 2)
  | .acc => !(s.file == 3)

/-- Check 6 on one operand field: bits that must be zero (R156, R157). -/
def Use.bad6 (u : Use) (s : Slot) : Bool :=
  match u with
  | .none => s.bits != 0
  | .gpair => s.bits.extractLsb' 6 8 != 0
  | .gone => s.bits.extractLsb' 3 11 != 0
  | .gbyte => s.file == 2 && s.bits.extractLsb' 0 14 != 0
  | .acc => s.bits.extractLsb' 2 12 != 0
  | _ => false

/-- Check 6 on the b field beside a literal (R160; an extended nop's b field is zero, R213). -/
def litField6 (op : BitVec 8) (b : Slot) : Bool :=
  b.file != 0 || b.stag || b.start != 0 || (op == 0 && b.bits != 0)

/-- The width in slices that a floating type or e8m0 gives an operand (Table 08-11), 0 for other codes. -/
def floatWidth (ty : Nat) : Nat :=
  match ty with
  | 2 | 3 => 4
  | 4 => 8
  | 5 | 6 | 8 => 2
  | 7 => 1
  | _ => 0

/-- Check 3 (R161): the variant and the source modifier. `mods`: the instruction accepts a modifier. A nonzero modifier under variant
0b00 fails it on every opcode of the arithmetic layout: the lower check decides where a rule names check 6 for it too (R164).
(log 86, DEDUCED) -/
def bad3 (op : BitVec 8) (mods : Bool) (v : BitVec 2) (a : Slot) (mod : BitVec 12) : Bool :=
  let arith := !(isMemOp op || isMatOp op)
  let cls := (mod.extractLsb' 0 3).toNat
  let seg := (mod.extractLsb' 3 3).toNat
  let dist := (mod.extractLsb' 6 3).toNat
  if v.toNat ≥ 2 then true
  else if v == 1 then
    !mods || a.file != 1 || cls == 0 || cls ≥ 4 || seg ≥ 4 || dist ≥ 2 ^ seg
  else arith && mod != 0

/-- Whether an instruction accepts the source modifier: a vector-class arithmetic layout with a in the vector file. -/
def acceptsMod (op : BitVec 8) (r : OpRow) : Bool :=
  isVectorOp op && !isMemOp op && r.a == .vec

/-- The matrix row of Table 15-2 or 16-1: A types, B types, then whether counter, tr, K, zf, masks, mcA and mcB are
used, and the ctl bits named. -/
structure MatRow where
  aTypes : List Nat
  bTypes : List Nat
  ctr : Bool
  tr : Bool
  k : Bool
  zf : Bool
  masks : Bool
  mc : Bool
  ctl : BitVec 4
  deriving DecidableEq, Repr

/-- Tables 15-2 and 16-1. -/
def matRow (op : BitVec 8) : MatRow :=
  match op.toNat with
  | 0xB0 => ⟨[0], [0], true, false, false, false, true, false, 8⟩
  | 0xB1 => ⟨[0, 2, 3, 5, 6, 7], [0, 2, 3, 5, 6, 7], true, false, true, true, true, true, 9⟩
  | 0xB2 => ⟨[0, 2, 3, 4, 5, 6, 7], [0], true, true, false, false, true, false, 8⟩
  | 0xB3 => ⟨[0, 4], [0, 2, 3, 4, 5, 6], true, false, false, false, true, false, 15⟩
  | 0xB7 => ⟨[0], [0], true, false, false, false, false, true, 8⟩
  | 0xB8 => ⟨[0, 2, 3, 5, 6, 7], [0, 2, 3, 5, 6, 7], true, false, true, true, true, false, 9⟩
  | 0xB9 => ⟨[7], [7], true, false, false, false, false, false, 8⟩
  | 0xBB => ⟨[0], [0], true, false, false, false, false, false, 8⟩
  | 0xBC => ⟨[0], [0], true, false, false, false, false, false, 8⟩
  | _ => ⟨[0], [0], false, false, false, false, false, false, 0⟩

/-- The pairs of operand types that mma and cpm accept (R295). -/
def mmaPair (a b : Nat) : Bool :=
  (a == 7 && b == 7) || (a == 7 && b == 3) || (a == 3 && b == 7) ||
  ((a == 5 || a == 6) && (b == 5 || b == 6)) || (a == 0 && b == 0) || (a == 3 && b == 3) || (a == 2 && b == 2)

/-- Check 4 of an extended form (R159, R281, R295). -/
def bad4 (op : BitVec 8) (r : OpRow) (w2 : BitVec 32) : Bool :=
  if isMatOp op then
    let x := XT.ofWords 0 ⟨0, false, 0, 0⟩ ⟨0, false, 0, 0⟩ ⟨0, false, 0, 0⟩ w2 none
    let m := matRow op
    !(m.aTypes.contains x.aty.toNat && m.bTypes.contains x.bty.toNat) ||
      ((op == 0xB1 || op == 0xB8) && !mmaPair x.aty.toNat x.bty.toNat)
  else
    let ty := (w2.extractLsb' 28 4).toNat
    let dt := (w2.extractLsb' 0 4).toNat
    !r.types.contains ty ||
      (op == 0x99 && (!r.types.contains dt || (ty ≤ 1 && (dt ≤ 1 || dt == 8)) || (ty == 8 && dt ≤ 1)))

/-- Operand widths that an instruction's own rule or a floating type fixes (R159, R234, R275, R281 to R285, R297), and
the 32 slices of cpm's a (R310); `stg` leaves a staggered a's range to check 7 (R164). -/
def badWidth (op : BitVec 8) (stg : Bool) (d a b c : Slot) (lit : Bool) (w2 : BitVec 32) : Bool :=
  let o := op.toNat
  let ty := (w2.extractLsb' 28 4).toNat
  let dt := (w2.extractLsb' 0 4).toNat
  let fw := floatWidth ty
  let ne (s : Slot) (w : Nat) : Bool := w != 0 && s.width != w
  let bw := ne b fw && (lit || b.file == 0 || b.file == 1)
  if o == 0x49 then d.width != 16
  else if o == 0x8A then d.width != 8 || a.width != 8 || b.width != 8
  else if o == 0x90 || o == 0x91 || o == 0x92 || o == 0x94 || o == 0x95 then ne d fw || ne a fw || bw
  else if o == 0x93 then ne d fw || ne a fw || bw || ne c fw
  else if o == 0x96 || o == 0x97 || (0x9A ≤ o && o ≤ 0x9D) then ne d fw || ne a fw
  else if o == 0x98 then ne a fw || bw
  else if o == 0x99 then ne a fw || ne d (floatWidth dt)
  else if o == 0x9E then ne a fw
  else if o == 0x9F then ne a fw || d.width != 1 || b.width != 2
  else if o == 0xA0 then ne a fw || d.width != 2
  else if o == 0xA1 then ne a fw || ne d fw
  else if o == 0xB5 then d.width != 8
  else if o == 0xB6 then a.width != 8
  else if o == 0xB8 then a.start.toNat + 32 > 512 && !(stg && a.stag)
  else false

/-- vst with a literal uses no d: its lanes are contiguous (R226). -/
def vstUnused (op : BitVec 8) (lit : Option (BitVec 64)) : Bool := op == 0x43 && lit.isSome
/-- send with BP = 0 uses no b (R241). -/
def sendUnused (op : BitVec 8) (d : Slot) : Bool := op == 0x60 && !d.bits.getLsbD 4

/-- Check 5 of an extended form. `stg`: inside a repetition, where check 7 judges staggered operands instead. -/
def bad5 (op : BitVec 8) (r : OpRow) (stg : Bool) (d a b : Slot) (w2 : BitVec 32) (lit : Option (BitVec 64)) : Bool :=
  let c := Slot.ofBits (w2.extractLsb' 0 16)
  (!vstUnused op lit && r.d.bad5 stg d) || r.a.bad5 stg a ||
  (lit.isNone && !sendUnused op d && r.b.bad5 stg b) ||
  (!(isMemOp op || isMatOp op) && r.c.bad5 stg c) || badWidth op stg d a b c lit.isSome w2 ||
  (op == 0x3A && !((d.file == 2 && a.file == 0) || (d.file == 0 && a.file == 2))) ||
  (op == 0x3B && !((d.file == 0 && a.file == 1) || (d.file == 1 && a.file == 0)))

/-- Check 6 in the memory layout (R221, Table 12-1). -/
def bad6Mem (op : BitVec 8) (r : OpRow) (w2 : BitVec 32) : Bool :=
  let x := XM.ofWords 0 ⟨0, false, 0, 0⟩ ⟨0, false, 0, 0⟩ ⟨0, false, 0, 0⟩ w2 none
  let o := op.toNat
  let orders : List Nat :=
    if o == 0x40 || o == 0x42 then [0, 1, 3] else if o == 0x41 || o == 0x43 then [0, 2, 3]
    else if 0x44 ≤ o && o ≤ 0x4A then [0, 1, 2, 3] else [0]
  let scopeUsed := o ≤ 0x4A
  let ctrUsed := o ≤ 0x49 || o == 0x4B || o == 0x4E || o == 0x4F
  x.z != 0 || x.op.toNat > 6 || (x.op != 0 && !(o == 0x44 || o == 0x46)) || !orders.contains x.ord.toNat ||
  x.scope.toNat > 5 || (o == 0x4D && !(x.scope == 2 || x.scope == 5)) || (o != 0x4D && !scopeUsed && x.scope != 0) ||
  (!ctrUsed && x.ctr != 0) || (x.off != 0 && r.a != .addr)

/-- Check 6 in the matrix layout (R297, R314). -/
def bad6Mat (op : BitVec 8) (w2 : BitVec 32) : Bool :=
  let x := XT.ofWords 0 ⟨0, false, 0, 0⟩ ⟨0, false, 0, 0⟩ ⟨0, false, 0, 0⟩ w2 none
  let m := matRow op
  (!m.ctr && x.ctr != 0) || (!m.tr && x.tr) || (!m.k && x.k != 0) || (!m.zf && x.zf) || (!m.masks && x.masks) ||
  (!m.mc && (x.mcA || x.mcB)) || x.ctl &&& ~~~m.ctl != 0 ||
  ((op == 0xB1 || op == 0xB8) && x.aty != 0 && x.ctl.getLsbD 0)

/-- Check 6 in the arithmetic layout: control fields and the modifier's top bits (R161, R192, R211, R270, R275, R276,
R280, R281, R283, R285). -/
def bad6Arith (op : BitVec 8) (v : BitVec 2) (d : Slot) (w2 : BitVec 32) : Bool :=
  let o := op.toNat
  let ty := (w2.extractLsb' 28 4).toNat
  let mod := w2.extractLsb' 16 12
  let c := w2.extractLsb' 0 16
  let dt := (c.extractLsb' 0 4).toNat
  (v == 1 && mod.extractLsb' 9 3 != 0) || (v == 0 && mod != 0) ||
  (o == 0x06 && (d.file != 0 || d.stag)) ||
  (o == 0x39 && c.extractLsb' 4 12 != 0) ||
  (o == 0x84 && ((c.extractLsb' 12 4).toNat ≥ 4 || c.extractLsb' 0 12 != 0)) ||
  (o == 0x98 && ((c.extractLsb' 12 4).toNat ≥ 6 || c.extractLsb' 0 12 != 0)) ||
  (o == 0x8A && (c.extractLsb' 2 14 != 0 || (ty == 9 && c.getLsbD 1))) ||
  ((o == 0x8B || o == 0xA1) && (c.extractLsb' 2 14 != 0 || c.extractLsb' 0 2 == 3)) ||
  (o == 0x99 && (c.extractLsb' 9 7 != 0 || (c.getLsbD 7 && dt != 5) ||
    (c.getLsbD 8 && (dt ≤ 1 || dt == 8 || dt == 5)))) ||
  (o == 0x9F && (c.extractLsb' 4 12 != 0 || dt ≥ 12))

/-- Check 6 of an extended form: fields that the form does not use are zero (R156); a send with BP = 0 uses neither b nor a literal.
(log 102, DESIGN CHOICE) -/
def bad6 (op : BitVec 8) (r : OpRow) (v : BitVec 2) (d a b : Slot) (w2 : BitVec 32) (lit : Option (BitVec 64)) : Bool :=
  r.d.bad6 d || r.a.bad6 a ||
  (match lit with
    | some _ => litField6 op b
    | none => if r.b == .ignored then b.bits != 0 else r.b.bad6 b) ||
  (if isMemOp op then bad6Mem op r w2
   else if isMatOp op then bad6Mat op w2
   else bad6Arith op v d w2 || r.c.bad6 (Slot.ofBits (w2.extractLsb' 0 16))) ||
  (vstUnused op lit && d.bits != 0) || (op == 0x00 && w2 != 0) ||
  (op == 0x60 && d.bits.extractLsb' 5 11 != 0) || (sendUnused op d && (b.bits != 0 || lit.isSome))

/-- Checks 5 and 6 of a base form (R153 to R155, R213): a pair at window 63, and fields that must be zero. -/
def badBase (f : BaseForm) (hi : BitVec 18) (lit : Option (BitVec 64)) : Option Nat :=
  let b := hi.extractLsb' 12 6
  let a := hi.extractLsb' 6 6
  let d := hi.extractLsb' 0 6
  let c5 := match f with
    | .b3Pair | .callx => a == 63 || d == 63
    | .target => a == 63
    | _ => false
  let c6 := match f with
    | .allZero => hi != 0
    | .unary | .callx => b != 0
    | .target => b != 0 || d != 0
    | _ => lit.isSome && b != 0
  if c5 then some 5 else if c6 then some 6 else none

/-- Whether a base form takes the literal of length 0b01 (R155): B3 with an operand b. -/
def BaseForm.takesLit : BaseForm → Bool
  | .b3 | .b3Pair | .icmp => true
  | _ => false

/-- The lowest decode check of Table 08-14 that the fields fail (R164), checks 1 to 6. `stg` is true inside a
repetition, where check 7 stands in for check 5 on staggered operands. -/
def Raw.failedCheckAt (stg : Bool) : Raw → Option Nat
  | .base op _ hi lit =>
    match opRow op with
    | none => some 1
    | some r =>
      if r.base == .reserved || (lit.isSome && !r.base.takesLit) then some 2 else badBase r.base hi lit
  | .ext op _ v d a b w2 lit =>
    match opRow op with
    | none => some 1
    | some r =>
      if !r.ext || (lit.isSome && !r.b.takesLit) then some 2
      else if bad3 op (acceptsMod op r) v a (w2.extractLsb' 16 12) then some 3
      else if bad4 op r w2 then some 4
      else if bad5 op r stg d a b w2 lit then some 5
      else if bad6 op r v d a b w2 lit then some 6
      else none

/-- The lowest failing check outside a repetition. -/
def Raw.failedCheck (r : Raw) : Option Nat := r.failedCheckAt false

end Sys2Proof
end

