-- ==== Sys2Proof/Machine/Operands.lean ====
section
/-! DEFINITION. Operands.lean: every operand form: slices, windows and pairs (R153, R181), literals (R155, R160),
extension (R159), lanes (R264), the source modifier (R161), and the frame of an instruction that runs under its guard
(R150, R183). -/

namespace Sys2Proof.Machine

/-- A range of slices: start and width. -/
structure Rng where
  start : Nat
  width : Nat
  deriving DecidableEq, Repr

/-- A source operand: a range of slices or a literal of a width in slices. -/
inductive Src where
  | reg (r : Rng)
  | lit (v : Nat) (width : Nat)
  deriving DecidableEq, Repr

def Src.width : Src → Nat
  | .reg r => r.width
  | .lit _ w => w

/-- read_slices on the scalar file (R13). -/
def readSlices (f : BitVec 2048) (r : Rng) : Nat := (f.toNat >>> (4 * r.start)) % 2 ^ (4 * r.width)
/-- write_slices on the scalar file (R13, R183). -/
def writeSlices (f : BitVec 2048) (r : Rng) (v : Nat) : BitVec 2048 :=
  let m := BitVec.ofNat 2048 (2 ^ (4 * r.width) - 1) <<< (4 * r.start)
  (f &&& ~~~m) ||| (BitVec.ofNat 2048 (v % 2 ^ (4 * r.width)) <<< (4 * r.start))
/-- A lane's slices of the vector file: lane L holds bits 1024 L upward (Table 02-3). -/
def readLane (f : BitVec 8192) (l : Nat) (r : Rng) : Nat :=
  (f.toNat >>> (1024 * l + 4 * r.start)) % 2 ^ (4 * r.width)
def writeLane (f : BitVec 8192) (l : Nat) (r : Rng) (v : Nat) : BitVec 8192 :=
  let m := BitVec.ofNat 8192 (2 ^ (4 * r.width) - 1) <<< (1024 * l + 4 * r.start)
  (f &&& ~~~m) ||| (BitVec.ofNat 8192 (v % 2 ^ (4 * r.width)) <<< (1024 * l + 4 * r.start))

/-- A w-bit value widened to n bits under a type code: sign-extended under sint, else zero-extended (R159). -/
def ext (ty v w n : Nat) : Nat := if ty = 0 then wrap n (sgn v w) else v

def Src.read (x : Src) (r : Regs) : Nat :=
  match x with
  | .reg g => readSlices r.scalar g
  | .lit v w => v % 2 ^ (4 * w)
/-- A source extended to n bits under a type. -/
def Src.ext (x : Src) (ty n : Nat) (r : Regs) : Nat := Machine.ext ty (x.read r) (4 * x.width) n
/-- A lane of a source; a literal gives every lane its value (R155, R160). -/
def Src.lane (x : Src) (r : Regs) (l : Nat) : Nat :=
  match x with
  | .reg g => readLane r.vec l g
  | .lit v w => v % 2 ^ (4 * w)

/-- Writes a scalar destination: v truncated to its width. -/
def Regs.put (r : Regs) (d : Rng) (v : Nat) : Regs := { r with scalar := writeSlices r.scalar d v }
/-- Writes a lane of a vector destination. -/
def Regs.putLane (r : Regs) (d : Rng) (l v : Nat) : Regs := { r with vec := writeLane r.vec l d v }
/-- Writes the selected lanes of a vector destination from a function of the lane (R150). -/
def Regs.putLanes (r : Regs) (d : Rng) (sel : BitVec 8) (f : Nat → Nat) : Regs :=
  (List.range 8).foldl (fun q l => if sel.getLsbD l then q.putLane d l (f l) else q) r

/-! ### Operand forms -/

/-- A 32-bit scalar window, and a 64-bit pair (R153). -/
def win (w : BitVec 6) : Rng := ⟨8 * w.toNat, 8⟩
def pair (w : BitVec 6) : Rng := ⟨8 * w.toNat, 16⟩
/-- A 16-bit vector window (R153). -/
def vwin (w : BitVec 6) : Rng := ⟨4 * w.toNat, 4⟩
/-- An extended slice operand (R157, R181). -/
def rngOf (s : Slot) : Rng := ⟨s.start.toNat, s.width⟩

/-- The lane that lane L takes operand a from under a source modifier (Table 12a of R161); without one, L itself. -/
def srcLane (var : BitVec 2) (m : BitVec 12) (l : Nat) : Nat :=
  let s := 2 ^ (m.extractLsb' 3 3).toNat
  let d := (m.extractLsb' 6 3).toNat
  let p := l % s
  let b := l - p
  if var = 0 then l
  else match (m.extractLsb' 0 3).toNat with
    | 1 => b + (p + d) % s
    | 2 => b + (p ^^^ d)
    | 3 => b + d
    | _ => l

/-- The operands of an arithmetic instruction in any of its forms: length in bytes, type code, destination, sources,
and the lane map of operand a. -/
structure Opnds where
  len : Nat
  ty : Nat := 0
  d : Rng
  a : Rng
  b : Src
  c : Rng
  var : BitVec 2 := 0
  mod : BitVec 12 := 0

def baseLen (lit : Option (BitVec 64)) : Nat := if lit.isSome then 12 else 4
def extLen (lit : Option (BitVec 64)) : Nat := if lit.isSome then 20 else 12

/-- Operand b of a base form of `w` slices: the window, or the low bits of the literal (R155). -/
def baseSrc (r : Rng) (lit : Option (BitVec 64)) : Src :=
  match lit with
  | none => .reg r
  | some l => .lit l.toNat r.width

/-- B3 in the scalar class: three 32-bit windows under sint (R154). -/
def ofB3 (o : B3) : Opnds :=
  { len := baseLen o.lit, d := win o.d, a := win o.a, b := baseSrc (win o.b) o.lit, c := win o.d }
/-- B3 of lea: d and a are pairs (R207). -/
def ofB3Pair (o : B3) : Opnds :=
  { len := baseLen o.lit, d := pair o.d, a := pair o.a, b := baseSrc (win o.b) o.lit, c := pair o.d }
/-- A unary base form in the scalar class. -/
def ofBU (o : BU) : Opnds := { len := 4, d := win o.d, a := win o.a, b := .reg (win o.a), c := win o.d }
/-- B3 in the vector class: 16-bit lanes; the third source is d (R154). -/
def ofB3V (o : B3) : Opnds :=
  { len := baseLen o.lit, d := vwin o.d, a := vwin o.a, b := baseSrc (vwin o.b) o.lit, c := vwin o.d }
def ofBUV (o : BU) : Opnds := { len := 4, d := vwin o.d, a := vwin o.a, b := .reg (vwin o.a), c := vwin o.d }
/-- Operand b of an extended form: the field, or the literal's low bits of the field's width (R160). -/
def extSrc (b : Slot) (lit : Option (BitVec 64)) : Src :=
  match lit with
  | none => .reg (rngOf b)
  | some l => .lit l.toNat b.width
/-- The extended form in the arithmetic layout. -/
def ofXA (x : XA) : Opnds :=
  { len := extLen x.lit, ty := x.ty.toNat, d := rngOf x.d, a := rngOf x.a, b := extSrc x.b x.lit, c := rngOf x.c,
    var := x.var, mod := x.mod }

/-- Operand a of lane L, under the source modifier. -/
def Opnds.aLane (o : Opnds) (r : Regs) (l : Nat) : Nat := readLane r.vec (srcLane o.var o.mod l) o.a

/-! ### The frame of an instruction (R150, R164 steps 3 and 4) -/

/-- The outcome type of every meaning. -/
abbrev Out := Host.Outcome State Fault Refusal

/-- The next state of a step that always has one. -/
def nextOf (o : Out) (s : State) : State := match o with
  | .next t => t
  | _ => s

/-- A scalar-class instruction of `len` bytes: under a false guard it only advances the PC. -/
def scalarI (g : Guard) (len : Nat) (body : State → State) (s : State) : Out :=
  .next (if s.me.r.guardTrue g then body s else advance len s)

/-- A scalar-class instruction that only changes registers and falls through. -/
def scalarR (g : Guard) (len : Nat) (f : Regs → Regs) (s : State) : Out :=
  scalarI g len (fun s => advance len (s.modMe fun t => { t with r := f t.r })) s

/-- A vector-class instruction: it runs when at least one lane is selected. -/
def vectorI (g : Guard) (len : Nat) (body : BitVec 8 → State → State) (s : State) : Out :=
  .next (if s.me.r.lanes g = 0 then advance len s else body (s.me.r.lanes g) s)

/-- A vector-class instruction that only changes registers. -/
def vectorR (g : Guard) (len : Nat) (f : BitVec 8 → Regs → Regs) (s : State) : Out :=
  vectorI g len (fun sel s => advance len (s.modMe fun t => { t with r := f sel t.r })) s

/-- A scalar operand in any of its forms, read zero-extended (Tables 12-1, 17-1). -/
def readZ (b : Slot) (lit : Option (BitVec 64)) (s : State) : Nat := (extSrc b lit).read s.me.r
/-- Writes a scalar destination of the issuing thread set. -/
def putMe (d : Slot) (v : Nat) (s : State) : State := s.modMe fun t => { t with r := t.r.put (rngOf d) v }

end Sys2Proof.Machine
end

