-- ==== Sys2Proof/Machine/Log.lean ====
section
/-! DEFINITION. Log.lean: completion entries and error records (R378 to R381), and the trace unit (R397 to R400). -/

namespace Sys2Proof.Machine

/-- A record's bytes from its fields in ascending offset: (bytes, value). -/
def fields (l : List (Nat × Nat)) : List Byte := l.flatMap fun e => leBytes e.1 e.2

/-! ### Error records -/

def ErrRec.bytes (e : ErrRec) : List Byte :=
  fields [(8, e.addr.toNat), (8, e.tagt.toNat), (4, e.tagm.toNat), (4, e.peer.toNat), (1, e.cause.toNat),
    (1, e.phys.toNat), (2, 0), (4, e.aux.toNat)]

/-- Where a reactor's control block byte lies physically. -/
def Reactor.ctlPa (r : Reactor) (off : Nat) : Nat := spAddr r.core (r.ctl + off)

/-- Appends a record to a bulkhead's error log, counting a record that is overwritten unread (R381). -/
def logTo (bh : Nat) (e : ErrRec) (s : State) : State :=
  s.modBu bh fun b =>
    { b with log := Map.set b.log (b.logN % 4096) e, logN := b.logN + 1,
             lost := if 4096 ≤ b.logN ∧ b.logRead.toNat ≤ b.logN - 4096 then b.lost + 1 else b.lost }

/-- Writes an error record into a reactor's error ring and advances its write index (R379, R380). A record whose reactor is gone
goes to the log of the bulkhead where it was, with its cluster in PEER (R381). (log 76, DEDUCED) -/
def errorTo (reactor : Nat) (e : ErrRec) (s : State) : State :=
  if s.hasRe reactor then
    let r := s.re reactor
    let n := s.rawNat (r.ctlPa 0x94) 4
    (s.put (spAddr r.core (r.eq + 32 * (n % 32))) e.bytes).put (r.ctlPa 0x94) (leBytes 4 (n + 1))
  else logTo (bhOfClu (cluOfReac reactor)) { e with peer := BitVec.ofNat 32 (cluOfReac reactor * 1024) } s

/-! ### Completion entries -/

/-- The error classes of Table 20-2; a private area that another reactor owns refuses as a gate does (R25). (log 60, DESIGN
CHOICE) -/
def Result.cls : Result → Nat
  | .ok => 0
  | .grave _ | .structural _ => 2
  | .notResident _ => 3
  | .refused _ | .notOwner _ => 4
  | .bounceFull _ => 5
  | .deadPeer _ => 6
  | .unmapped _ => 7
  | .permission _ => 8
  | .unaligned _ => 9

/-- A completion entry's 16 bytes (Table 20-1): FLAGS are NV DZ OF UF NX NEGLIGIBLE BOUNDED skipped, low bit first. -/
def complEntry (seq : W32) (unit cls addr flags engine : Nat) : List Byte :=
  fields [(4, seq.toNat), (4, unit % 2 ^ 27 + cls * 2 ^ 27),
    (8, addr % 2 ^ 48 + (addr / 2 ^ 60) * 2 ^ 48 + (flags % 256) * 2 ^ 52 + engine * 2 ^ 60 + 2 ^ 63)]

/-- Writes a completion entry, then advances the completion write index in QIDX (R378, R379). -/
def completeTo (reactor : Nat) (bs : List Byte) (s : State) : State :=
  if s.hasRe reactor then
    let r := s.re reactor
    let n := s.rawNat (r.ctlPa 0x90) 4
    (s.put (spAddr r.core (r.cq + 16 * (n % 64))) bs).put (r.ctlPa 0x90) (leBytes 4 (n + 1))
  else s

/-! ### Counting events (R333, R405) -/

/-- Adds to a 48-bit counter; it wraps and sets OVF (R333). -/
def Ctr.add (c : Ctr) (n : Nat) : Ctr :=
  let v := c.count.toNat + n
  { count := BitVec.ofNat 64 (v % 2 ^ 48), ovf := c.ovf || 2 ^ 48 ≤ v }

/-- An event of Table 21-10 that belongs to a thread set: each programmable counter configured for it counts; an
overflow notes EVT in OEVT (Table 17-7). (log 52, DESIGN CHOICE) -/
def countEv (u evt n : Nat) (s : State) : State :=
  let k := s.co (coreOf u)
  if k.cfg.any (fun e => e.2.evt.toNat = evt && e.2.tsm.getLsbD (tsOf u)) then
    s.modCo (coreOf u) fun k =>
      (List.range 4).foldl (fun k i =>
        let g := Map.get {} k.cfg i
        if g.evt.toNat = evt && g.tsm.getLsbD (tsOf u) then
          let c := Map.get {} k.ctrs i
          let k := { k with ctrs := Map.set k.ctrs i (c.add n) }
          if 2 ^ 48 ≤ c.count.toNat + n then { k with cfg := Map.set k.cfg i { g with oevt := g.evt } } else k
        else k) k
  else s

/-- A stall of a thread set for cause n of Table 21-9: stall counter n, and event code 0x10 + n - 8 (R404, R405). A wait for what the
table does not list, n = 0, counts nowhere. (log 52, DESIGN CHOICE) -/
def stall (u n cycles : Nat) (s : State) : State :=
  if cycles = 0 ∨ n = 0 then s
  else countEv u (0x08 + n) cycles (s.modCo (coreOf u) fun k =>
    { k with ctrs := Map.set k.ctrs n ((Map.get {} k.ctrs n).add cycles) })

/-! ### The trace unit -/

def trEn (v : W64) : Bool := v.getLsbD 63
def trCap (v : W64) : Nat := 1024 * 2 ^ (v.extractLsb' 57 4).toNat
def rpMode (b : Bulkhead) : Nat := (b.rpctl.extractLsb' 62 2).toNat

/-- Whether the trace unit takes no further record: the buffer is full and does not wrap (Table 21-1). -/
def traceFull (b : Bulkhead) : Bool := b.trctl.getLsbD 61 && !b.trctl.getLsbD 62

/-- A record is dropped, and counted (R398). -/
def traceDrop (bh : Nat) (s : State) : State :=
  s.modBu bh fun b =>
    { b with trwp := BitVec.ofNat 32 (min ((b.trwp.extractLsb' 32 32).toNat + 1) (2 ^ 32 - 1)) ++ b.trwp.extractLsb' 0 32 }

/-- Writes one 64-byte record as one sector and advances WP, or drops it (R397, R398). -/
def traceStore (bh : Nat) (s : State) (bs : List Byte) : State :=
  let b := s.bu bh
  if traceFull b then traceDrop bh s
  else
    let wp := (b.trwp.extractLsb' 0 32).toNat
    let base := hbmAddr bh ((b.trctl.extractLsb' 16 20).toNat * 65536)
    (s.put (base + 64 * (wp % trCap b.trctl)) bs).modBu bh fun b =>
      { b with trwp := b.trwp.extractLsb' 32 32 ++ BitVec.ofNat 32 (wp + 1),
               trctl := if (wp + 1) % trCap b.trctl = 0 && !b.trctl.getLsbD 62 then b.trctl ||| (1#64 <<< 61)
                        else b.trctl }

/-- The records that wait are written, oldest first. (log 79, DESIGN CHOICE) -/
def traceFlush (bh : Nat) (s : State) : State :=
  (s.bu bh).trWait.foldl (traceStore bh) (s.modBu bh fun b => { b with trWait := [] })

/-- Every trace unit writes what waits at it: the end of a step (R398). (log 79, DESIGN CHOICE) -/
def traceOut (s : State) : State :=
  s.bh.foldl (fun s e => if e.2.trWait.isEmpty then s else traceFlush e.1 s) s

/-- A record of 64 bytes from its first 62: the bulkhead's count is its SEQ (Table 21-3). -/
def traceSeq (bh : Nat) (bs : List Byte) (s : State) : State × List Byte :=
  (s.modBu bh fun b => { b with trSeq := b.trSeq + 1 }, bs.take 62 ++ leBytes 2 (s.bu bh).trSeq.toNat)

/-- Writes a record of kind 5 or 6 at once, before what waits. `own` is the record's own SEQ (kind 6), otherwise the bulkhead's
count. (log 34, DEDUCED) (log 79, DESIGN CHOICE) -/
def traceWrite (bh : Nat) (bs : List Byte) (own : Option Nat) (s : State) : State :=
  let (s, r) := match own with
    | some n => (s, bs.take 62 ++ leBytes 2 n)
    | none => traceSeq bh bs s
  traceStore bh s r

/-- A record of a kind that TRCTL.KINDS governs waits to be written; where 64 wait already it is dropped (R397, R398, Table 21-4).
(log 79, DESIGN CHOICE) -/
def trace (bh kind : Nat) (bs : List Byte) (s : State) : State :=
  let b := s.bu bh
  if trEn b.trctl && (b.trctl.extractLsb' 48 8).getLsbD kind then
    let (s, r) := traceSeq bh bs s
    if 64 ≤ b.trWait.length then traceDrop bh s else s.modBu bh fun b => { b with trWait := b.trWait ++ [r] }
  else s

/-- The fields of a record in the layout of Table 21-3. -/
structure Rec where
  kind : Nat
  tagt : Nat := 0
  tagm : Nat := 0
  coord : Nat := 0
  route : Nat := 0
  flags : Nat := 0
  sender : Nat := 0
  entry : Nat := 0
  tarr : Nat := 0
  tdisp : Nat := 0
  tdone : Nat := 0
  sendt : Nat := 0
  outcome : Nat := 0

def Rec.bytes (r : Rec) : List Byte :=
  fields [(8, r.tagt), (4, r.tagm), (4, r.coord % 2 ^ 27 + r.kind * 2 ^ 27), (3, r.route), (1, r.flags),
    (4, r.sender), (8, r.entry), (8, r.tarr), (8, r.tdisp), (8, r.tdone), (4, r.sendt), (1, r.outcome), (1, 0)]

end Sys2Proof.Machine
end

