-- ==== Sys2Proof/Machine/Protect.lean ====
section
/-! DEFINITION. Protect.lean: bank formats and frame attributes (R45, R445), the protection codes of Table 03-5 over a
sector's bit errors, and severity (R49 to R56). -/

namespace Sys2Proof.Machine

/-- BFMTn of a core; those of banks 12 to 15 read as zero (R23). -/
def State.bfmt (s : State) (core bank : Nat) : W64 := if 12 ≤ bank then 0 else Map.get 0 (s.co core).bfmt bank

/-- The layout codes of Table 03-4. -/
def layoutOk (l : Nat) : Bool := l ≤ 4 || (0x10 ≤ l && l ≤ 0x17)

/-- LAYOUT and TM that govern a physical byte: its bank's BFMT, or its frame's attribute record (R45, R445). -/
def State.protection (s : State) (pa : Nat) : Nat × Bool :=
  if isSp pa then
    let f := s.bfmt (spCore pa) (spOff pa / 0x8000)
    ((f.extractLsb' 0 8).toNat, f.getLsbD 10)
  else
    let b := bhOfPa pa
    let r := s.rawNat (hbmAddr b ((s.bu b).attrBase.toNat % 2 ^ 36 + 2 * (pa % 2 ^ 36 / 65536))) 2
    (r % 256, r.testBit 8)

/-- Bits of an element of a layout, in bits (Table 03-4). -/
def elemBits (l : Nat) : Nat :=
  match l with
  | 0x10 => 32
  | 0x11 | 0x12 | 0x17 => 16
  | 0x15 => 4
  | 0x02 => 16
  | 0x03 => 32
  | 0x04 => 64
  | _ => 8

/-- The bit fields of an element: DSC, SEC-DED and parity, each (lowest bit, width) (Table 03-4). -/
def dscField (l : Nat) : Nat × Nat :=
  match l with
  | 0x10 => (23, 9)
  | 0x11 => (10, 6)
  | 0x12 => (7, 9)
  | 0x13 => (3, 5)
  | 0x14 => (2, 6)
  | 0x15 => (0, 0)
  | _ => (0, elemBits l)
def secField (l : Nat) : Nat × Nat :=
  match l with
  | 0x10 => (16, 7)
  | 0x11 => (6, 4)
  | 0x12 => (4, 3)
  | 0x15 => (0, 4)
  | _ => (0, 0)
def parField (l : Nat) : Nat × Nat :=
  match l with
  | 0x10 => (0, 16)
  | 0x11 => (0, 6)
  | 0x12 => (0, 4)
  | 0x13 => (0, 3)
  | _ => (0, 0)

/-- Positions, within the sector, of a field of elements `e0` to `e0 + n - 1`, element by element from the low bit. -/
def fieldBits (l e0 n : Nat) (f : Nat × Nat) : List Nat :=
  (List.range n).flatMap fun e => (List.range f.2).map fun i => (e0 + e) * elemBits l + f.1 + i

/-- One code word of a sector: its class, its data bit positions, its check bit positions, and the elements it covers.
Check bits are taken in the order of Table 03-5: DSC, SEC-DED, parity (log 5, DEDUCED). -/
inductive CodeKind where
  | dsc | sec | par
  deriving DecidableEq, Repr

structure CodeWord where
  kind : CodeKind
  data : List Nat
  chk0 : Nat
  chkN : Nat
  e0 : Nat
  n : Nat

/-- The code words of a layout (Table 03-5). (log 5, DEDUCED) -/
def codeWords (l : Nat) : List CodeWord :=
  let ne := 512 / elemBits l
  if l = 0x15 then
    (List.range 8).map fun i => ⟨.sec, fieldBits l (16 * i) 16 (0, 4), 8 * i, 8, 16 * i, 16⟩
  else if l ≤ 4 ∨ l = 0x16 ∨ l = 0x17 then
    (List.range 2).map fun i => ⟨.dsc, (List.range 256).map (256 * i + ·), 32 * i, 32, ne / 2 * i, ne / 2⟩
  else
    let sec := (secField l).2
    let secN := if sec = 0 then 0 else if l = 0x11 then 9 else 8
    let pe := if l = 0x10 then 1 else 2
    [⟨.dsc, fieldBits l 0 ne (dscField l), 0, 32, 0, ne⟩] ++
    (if sec = 0 then [] else [⟨.sec, fieldBits l 0 ne (secField l), 32, secN, 0, ne⟩]) ++
    (if (parField l).2 = 0 then []
     else (List.range (ne / pe)).map fun i =>
       ⟨.par, fieldBits l (pe * i) pe (parField l), 32 + secN + i, 1, pe * i, pe⟩)

/-- The number of 8-bit symbols in error in a DSC group, check symbols included. (log 5, DEDUCED) -/
def symbolErrors (d : BitVec 512) (c : BitVec 64) (w : CodeWord) : Nat :=
  let rec go : List Nat → Nat → Bool → Nat
    | [], _, bad => bad.toNat
    | b :: bs, i, bad =>
      if i = 8 then bad.toNat + go bs 1 (d.getLsbD b) else go bs (i + 1) (bad || d.getLsbD b)
  go w.data 0 false +
    ((List.range (w.chkN / 8)).filter fun i => c.extractLsb' (w.chk0 + 8 * i) 8 != 0).length

/-- The number of bits in error in a code word. (log 5, DEDUCED) -/
def bitErrors (d : BitVec 512) (c : BitVec 64) (w : CodeWord) : Nat :=
  (w.data.filter fun b => d.getLsbD b).length + ((List.range w.chkN).filter fun i => c.getLsbD (w.chk0 + i)).length

/-- How a code word fares: no error, corrected, or failed (R50). An even number of bits in error under one parity bit
is not detected. -/
inductive Fate where
  | clean | corrected | failed
  deriving DecidableEq, Repr

def CodeWord.fate (d : BitVec 512) (c : BitVec 64) (w : CodeWord) : Fate :=
  match w.kind with
  | .dsc => match symbolErrors d c w with
    | 0 => .clean
    | n => if n ≤ 2 then .corrected else .failed
  | .sec => match bitErrors d c w with
    | 0 => .clean
    | 1 => .corrected
    | _ => .failed
  | .par => if bitErrors d c w % 2 = 1 then .failed else .clean

/-- Severities of Table 03-7, worst highest: 0 none, 1 NEGLIGIBLE, 2 BOUNDED, 3 GRAVE, 4 STRUCTURAL. -/
def severity (l : Nat) (tm : Bool) : CodeKind → Nat
  | .dsc => if l ≤ 4 ∨ l = 0x17 then 4 else 3
  | .sec => if l = 0x15 then 3 else 2
  | .par => if tm then 1 else 2

/-- The severity at which poison reads (R53). -/
def poisonSev (l : Nat) : Nat := if l ≤ 4 ∨ l = 0x17 then 4 else 3

/-- A sector as it reads under a layout: the data bits still in error after correction, the severity of each element,
and whether anything was corrected. -/
structure Judged where
  flips : BitVec 512 := 0
  sev : List Nat := []
  corrected : Bool := false

def judge (l : Nat) (tm : Bool) (d : BitVec 512) (c : BitVec 64) : Judged :=
  let ws := (codeWords l).map fun w => (w, w.fate d c)
  { flips := ws.foldl (fun f e => if e.2 = .corrected then
      e.1.data.foldl (fun f b => f &&& ~~~(1#512 <<< b)) f else f) d
    sev := (List.range (512 / elemBits l)).map fun e =>
      ws.foldl (fun m w => if w.2 = .failed ∧ w.1.e0 ≤ e ∧ e < w.1.e0 + w.1.n then
        max m (severity l tm w.1.kind) else m) 0
    corrected := ws.any fun e => e.2 == .corrected }

/-- The worst severity of the elements that bytes o to o + n - 1 of a sector touch. -/
def sevOf (l : Nat) (j : Judged) (o n : Nat) : Nat :=
  let eb := elemBits l
  ((j.sev.zipIdx).filter fun e => e.2 * eb < 8 * (o + n) ∧ 8 * o < (e.2 + 1) * eb).foldl (fun m e => max m e.1) 0

end Sys2Proof.Machine
end

