-- ==== Sys2Proof/Machine/Access.lean ====
section
/-! DEFINITION. Access.lean: the windows of the generic address (R18 to R36), extents and late-bound translation (R64 to
R71), the gate (R37 to R39, R392), and performing an access at its target: migration (R81), withdrawn frames (R75),
protection (R53, R55), watchpoints (R336, R337) and post-commit ranges (R384). -/

namespace Sys2Proof.Machine

/-- What an access does: load, store, atomic or Weevil operation. -/
inductive Right where
  | r | w | a
  deriving DecidableEq, Repr

/-- Where a generic address lies (Table 02-1). -/
inductive Place where
  | sp (core off : Nat)
  /-- window 0xE: a scratchpad, judged by the extents too -/
  | far (core off : Nat)
  | paged
  | frame (core ts off : Nat)
  deriving DecidableEq, Repr

/-- The place of n bytes at a generic address issued by thread set u; `none` where R20 raises the address trap. -/
def place (u va n : Nat) : Option Place :=
  let lo := va % 2 ^ 60
  match va / 2 ^ 60 with
  | 0 => if lo + n ≤ 0x4000 then some (.sp (coreOf u) (0x60000 + tsOf u * 0x4000 + lo)) else none
  | 1 => if lo + n ≤ 0x70000 then some (.sp (coreOf u) lo) else none
  | 2 =>
    if lo / 2 ^ 28 ≠ 0 then none
    else if lo.testBit 27 then
      if lo / 2 ^ 14 % 32 ≠ 0 ∨ lo % 4096 + n > 4096 then none
      else some (.frame (cluOf u * 256 + lo / 2 ^ 19 % 256) (lo / 4096 % 4) (lo % 4096))
    else if lo % 2 ^ 19 + n ≤ 0x70000 then some (.sp (cluOf u * 256 + lo / 2 ^ 19) (lo % 2 ^ 19)) else none
  | 0xE =>
    if lo / 2 ^ 44 ≠ 0 ∨ 24 ≤ lo / 2 ^ 29 % 32 then none
    else if lo % 2 ^ 19 + n ≤ 0x70000 then
      some (.far ((lo / 2 ^ 34) * 32768 + (lo / 2 ^ 29 % 32) * 1024 + lo / 2 ^ 19 % 1024) (lo % 2 ^ 19))
    else none
  | 0xF => none
  | _ => if lo + n ≤ 2 ^ 48 then some .paged else none

/-- Whether a range of a core's scratchpad touches private areas that the issuer may not reach (R25): every touched
area must be owned by the reactor whose activation issues, or the issuer must be privileged. -/
def ownerOk (s : State) (u core off n : Nat) : Bool :=
  let a := s.act u
  off + n ≤ 0x60000 || a.priv ||
    (List.range 4).all fun t =>
      off + n ≤ 0x60000 + t * 0x4000 || 0x60000 + (t + 1) * 0x4000 ≤ off ||
        ((s.th u).act.isSome && (s.th (core * 4 + t)).owner == some a.reactor)

/-! ### Extents -/

def extBase (e : W128) : Nat := (e.extractLsb' 64 64).toNat
def extLast (e : W128) : Nat := extBase e + (e.extractLsb' 24 40).toNat
def extLate (e : W128) : Bool := e.getLsbD 20
def extGrants (e : W128) (k : Right) : Bool :=
  e.getLsbD 19 && (match k with
    | .r => e.getLsbD 22
    | .w => e.getLsbD 23
    | .a => e.getLsbD 21)
def extCovers (k : Right) (va : Nat) (e : W128) : Bool := extGrants e k && extBase e ≤ va && va ≤ extLast e

/-- The first byte of va to stop - 1 that no valid extent covers with the right (R68); each pass moves past one extent. -/
def firstUncovered (exts : List W128) (k : Right) (stop : Nat) : Nat → Nat → Option Nat
  | 0, va => if va < stop then some va else none
  | f + 1, va =>
    if stop ≤ va then none
    else match exts.find? (extCovers k va) with
      | none => some va
      | some e => firstUncovered exts k stop f (extLast e + 1)

/-- The bytes of a fragment's page (Table 04-4). -/
def fragSize (f : W64) : Nat := 65536 * 32 ^ (f.extractLsb' 2 2).toNat * (if f.extractLsb' 2 2 = 2 then 16 else 1)

/-- The fragment that maps a virtual address, and the offset in its page, in an extent whose fragments start with the
page that holds `v` (R65). -/
def findFrag : List W64 → Nat → Nat → Option (W64 × Nat)
  | [], _, _ => none
  | f :: fs, v, va =>
    let b := v / fragSize f * fragSize f
    if b ≤ va ∧ va < b + fragSize f then some (f, va - b) else findFrag fs (b + fragSize f) va

/-- The piece of an access that a fragment maps (R69). -/
def fragPiece (f : W64) (off va n : Nat) : Piece :=
  { va := va, pa := (f.extractLsb' 16 36).toNat * 65536 + off, n := n, ord := (f.extractLsb' 6 2).toNat,
    layout := f.extractLsb' 8 8, tm := f.getLsbD 5, lvl := (f.extractLsb' 2 2).toNat }

/-- Why an access does not go ahead: a precise trap, or a miss of the late translation table (address, extent index,
access kind). -/
inductive Bad where
  | trap (cause : Nat) (val : Nat)
  | miss (va xi : Nat) (k : Right)
  deriving DecidableEq, Repr

/-- A late translation table entry for a thread set's page (Table 04-5). -/
def lateHit (u page xi : Nat) (e : W128) : Bool :=
  (e.extractLsb' 80 48).toNat == page && (e.extractLsb' 78 2).toNat == tsOf u && (e.extractLsb' 77 1).toNat == xi &&
    e.getLsbD 0

/-- The piece in scratchpad: class RC, layout from the bank's BFMT (R36, R89). -/
def spPiece (s : State) (core off va n : Nat) : Piece :=
  let p := s.protection (spAddr core off)
  { va := va, pa := spAddr core off, n := n, ord := 1, layout := BitVec.ofNat 8 p.1, tm := p.2 }

/-- Translation of n bytes that lie in one 64 KiB page (R69, R71). A late-bound extent based in window 0xE is computed directly and asks
nothing of the late translation table. (log 90, DESIGN CHOICE) -/
def translate1 (s : State) (u : Nat) (k : Right) (va n : Nat) : Except Bad Piece :=
  let a := s.act u
  match a.extents.zipIdx.find? fun e => extCovers k va e.1 with
  | none => .error (.trap 0x03 va)
  | some (e, i) =>
    match place u va n with
    | some (.far core off) => .ok (spPiece s core off va n)
    | _ =>
      if extLate e then
        match ((s.co (coreOf u)).late.map (·.2) ++ ((s.th u).latch.getD [])).find? (lateHit u (va / 65536) (i - 8)) with
        | some t => let f : W64 := t.extractLsb' 0 64
                    .ok (fragPiece f (va % fragSize f) va n)
        | none => .error (.miss va (i - 8) k)
      else
        match findFrag ((a.frags.drop (e.extractLsb' 0 9).toNat).take (e.extractLsb' 9 7).toNat) (extBase e) va with
        | some (f, off) => .ok (fragPiece f off va n)
        | none => .error (.trap 0x03 va)

/-- Translation of a range, split at 64 KiB boundaries; the fuel is the number of pages it can touch. -/
def translate (s : State) (u : Nat) (k : Right) : Nat → Nat → Nat → Except Bad (List Piece)
  | 0, _, _ => .ok []
  | f + 1, va, n =>
    if n = 0 then .ok []
    else
      let m := min n (65536 - va % 65536)
      match translate1 s u k va m with
      | .error e => .error e
      | .ok p =>
        match translate s u k f (va + m) (n - m) with
        | .error e => .error e
        | .ok ps => .ok (p :: ps)

/-- Marks the late translation table entries that an access of pieces has used as the most recently used (R74). -/
def useLate (u : Nat) (k : Right) (ps : List Piece) (s : State) : State :=
  ps.foldl (fun s p =>
    match (s.act u).extents.zipIdx.find? fun e => extCovers k p.va e.1 with
    | some (e, i) =>
      if extLate e then s.modCo (coreOf u) fun c =>
        { c with late := (c.late.filter fun (e : Nat × W128) => lateHit u (p.va / 65536) (i - 8) e.2) ++
                         c.late.filter fun (e : Nat × W128) => !lateHit u (p.va / 65536) (i - 8) e.2 }
      else s
    | none => s) s

/-- Strength of an order class, strongest least: SO, DV, RC, UO (R95). -/
def ordRank (c : Nat) : Nat :=
  match c with
  | 0 => 0
  | 3 => 1
  | 1 => 2
  | _ => 3
/-- The weaker of two classes. -/
def weaker (a b : Nat) : Nat := if ordRank a ≤ ordRank b then b else a
/-- Parts of one access in two pages take the weaker class (R95). -/
def weaken (ps : List Piece) : List Piece :=
  let c := ps.foldl (fun m p => weaker m p.ord) 0
  ps.map fun p => { p with ord := if ps.length ≤ 1 then p.ord else c }

/-- The bytes that a leaf at a level maps (Table 04-1). -/
def lvlSize (l : Nat) : Nat := match l with
  | 0 => 0x10000
  | 1 => 0x200000
  | _ => 0x40000000

/-- The first watched byte of a kind in a range, by a thread set's core-side watchpoints (R336). -/
def watched (t : Thread) (k : Right) (va n : Nat) : Option Nat :=
  t.watch.foldl (fun m w =>
    let hit := (match k with | .r => w.2.rd | .w => w.2.wr | .a => w.2.rd || w.2.wr) &&
      w.2.addr < va + n && va < w.2.addr + w.2.len && 0 < n
    let b := max va w.2.addr
    if hit then (match m with | none => some b | some c => some (min b c)) else m) none

/-- The checks of an access at issue, in the order of R365, and its translation: address (R20), private areas (R25) where `own`
asks for them, extent (R68), core-side watchpoints of a kind (R336), then the late translation table (R71). The context
aperture is not reached here. -/
def judgeAccess (s : State) (u : Nat) (k : Right) (own : Bool) (w : Option Right) (va n : Nat) : Except Bad (List Piece) :=
  let watch (f : Except Bad (List Piece)) : Except Bad (List Piece) :=
    match w.bind fun k => watched (s.th u) k va n with
    | some b => .error (.trap 0x08 b)
    | none => f
  match place u va n with
  | none => .error (.trap 0x02 va)
  | some (.frame ..) => .error (.trap 0x02 va)
  | some (.sp core off) =>
    if own && va / 2 ^ 60 ≠ 0 && !ownerOk s u core off n then .error (.trap 0x02 va)
    else watch (.ok [spPiece s core off va n])
  | some (.far core off) =>
    if own && bhOfCore core = bhOf u && !ownerOk s u core off n then .error (.trap 0x02 va)
    else match firstUncovered (s.act u).extents k (va + n) 11 va with
      | some b => .error (.trap 0x03 b)
      | none => watch (.ok [spPiece s core off va n])
  | some .paged =>
    match firstUncovered (s.act u).extents k (va + n) 11 va with
    | some b => .error (.trap 0x03 b)
    | none => watch (match translate s u k (n / 65536 + 2) va n with
        | .error e => .error e
        | .ok ps => .ok (weaken ps))

/-- The checks of a load, store, atomic or Weevil operation at issue. -/
def checkAccess (s : State) (u : Nat) (k : Right) (va n : Nat) : Except Bad (List Piece) := judgeAccess s u k true (some k) va n

/-! ### Who asks, and whether the target lets it (R37, R121, R392) -/

/-- The issuer of a request as it travels (R85): unit, bulkhead, partition, privilege, path, and the reactor whose activation
issues. -/
structure Agent where
  unit : Nat
  bh : Nat
  part : Nat
  priv : Bool
  path : Nat := 0
  reactor : Option Nat := none
  /-- its read and its write are one access, which the atomic shows to the watchpoints itself (R406) -/
  whole : Bool := false
  /-- the gate has admitted its reads already (R39) -/
  passed : Bool := false
  deriving DecidableEq, Repr

/-- A thread set as the agent of its accesses on a path. -/
def State.agent (s : State) (u path : Nat) : Agent :=
  { unit := u, bh := bhOf u, part := s.partOf (bhOf u), priv := (s.act u).priv, path := path,
    reactor := (s.th u).act.map (·.reactor) }

/-- Whether a window-table entry lets a request through (R37 to R39). -/
def windowGrants (e : W128) (part pa n : Nat) (k : Right) : Bool :=
  let base := (e.extractLsb' 16 20).toNat * 65536
  let stop := base + ((e.extractLsb' 64 20).toNat + 1) * 65536
  let off := pa % 2 ^ 36
  e.getLsbD 63 && (match k with | .r => e.getLsbD 62 | .w => e.getLsbD 61 | .a => e.getLsbD 60) &&
    (e.extractLsb' 45 15).toNat == part && part < 24576 && e.getLsbD 36 == isSp pa &&
    stop ≤ (if e.getLsbD 36 then 2 ^ 29 else hbmEnd) && base ≤ off && off + n ≤ stop

/-- The gate of the target bulkhead (R37); private areas open to privileged issuers only (R25). (log 50, DEDUCED) -/
def gateOk (s : State) (g : Agent) (pa n : Nat) (k : Right) : Bool :=
  let tb := bhOfPa pa
  (match s.partOf? tb with
    | none => false
    | some p => p == g.part || (s.bu tb).windows.any fun e => windowGrants e.2 g.part pa n k) &&
  (!isSp pa || spOff pa + n ≤ 0x60000 || (g.priv && spOff pa + n ≤ 0x70000))

/-- The bulkheads that a request crosses within its own device, from b1 to b2: along the row, then the column (R392). -/
def routeBhs (dev b1 b2 : Nat) : List Nat :=
  let r1 := b1 / 6
  let c1 := b1 % 6
  let r2 := b2 / 6
  let c2 := b2 % 6
  let row := (List.range 6).filter fun c => min c1 c2 ≤ c ∧ c ≤ max c1 c2
  let col := (List.range 4).filter fun r => min r1 r2 ≤ r ∧ r ≤ max r1 r2
  (row.map fun c => dev * 32 + r1 * 6 + c) ++ (col.map fun r => dev * 32 + r * 6 + c2)

/-- Every bulkhead crossed, other than the source and the target, belongs to the source's or the target's partition. -/
def transitOk (s : State) (g : Agent) (pa : Nat) : Bool :=
  let tb := bhOfPa pa
  (routeBhs (devOfBh g.bh) (g.bh % 32) (tb % 32)).all fun b =>
    b == g.bh || b == tb || s.partOf? b == some g.part || s.partOf? b == s.partOf? tb && (s.partOf? b).isSome

/-- Whether the fabric port of a bulkhead is not down: a port that trains again keeps what it carries (R416, R423). -/
def portUp (s : State) (bh : Nat) : Bool := (s.li bh).up != 0

/-- Whether a device cannot reach a bulkhead of another over its plane: it holds the device down there, or a port of the plane
is down, retired, or has every lane retired (R121, R396, R424). -/
def planeDead (s : State) (dev tb : Nat) : Bool :=
  let j := dev * 32 + tb % 32
  (s.bu j).deadMap.contains (devOfBh tb) || !portUp s j || (s.bu j).retired || (s.bu j).noPort || (s.bu tb).noPort

/-- Whether a bulkhead is dead to an observer: in reset or retired, or out of reach on its plane; or it holds the observer dead
and discards its requests (R121, R394, R396, R424). -/
def peerDead (s : State) (fromBh tb : Nat) : Bool :=
  (s.bu tb).reset || (s.bu tb).retired ||
    (devOfBh fromBh != devOfBh tb &&
      (planeDead s (devOfBh fromBh) tb || (s.bu tb).deadMap.contains (devOfBh fromBh)))

/-- A scratchpad whose core answers nobody else: sealed, killed or retired (R332, R388, R396). -/
def coreShut (s : State) (g : Agent) (pa : Nat) : Bool :=
  isSp pa && spCore pa != coreOf g.unit &&
    (let k := s.co (spCore pa); k.isSealed || k.killed || k.retired)

/-- Whether the private areas that a request touches, other than through its own private window, belong to its issuer when it
reaches their scratchpad (R25). (log 60, DESIGN CHOICE) -/
def ownerNow (s : State) (g : Agent) (p : Piece) : Bool :=
  p.va / 2 ^ 60 == 0 || !isSp p.pa || spOff p.pa + p.n ≤ 0x60000 || g.priv ||
    (List.range 4).all fun t =>
      spOff p.pa + p.n ≤ 0x60000 + t * 0x4000 || 0x60000 + (t + 1) * 0x4000 ≤ spOff p.pa ||
        (g.reactor.isSome && (s.th (spCore p.pa * 4 + t)).owner == g.reactor)

/-- What happens to a request at its target before it is performed. A request that a Weevil makes in its own bulkhead for an
issuer of another is judged by the gate like one that comes in (R37). A read that a withdrawn frame holds goes on under the rights
that admitted it (R39). (log 60, DESIGN CHOICE) -/
def reach (s : State) (g : Agent) (p : Piece) (k : Right) : Result :=
  let admits : Bool := (g.passed && k != .w) || gateOk s g p.pa p.n k
  if bhOfPa p.pa = g.bh then
    if coreShut s g p.pa then .deadPeer p.va
    else if bhOf g.unit ≠ g.bh then (if admits then .ok else .refused p.va)
    else if ownerNow s g p then .ok else .notOwner p.va
  else if !transitOk s g p.pa then .refused p.va
  else if peerDead s g.bh (bhOfPa p.pa) || coreShut s g p.pa then .deadPeer p.va
  else if admits then .ok else .refused p.va

/-! ### Migration (Table 04-6, R81) -/

def migState (e : W128) : Nat := (e.extractLsb' 126 2).toNat
def migPtr (e : W128) : Nat := (e.extractLsb' 99 25).toNat
def migLines (e : W128) : Nat := match (e.extractLsb' 124 2).toNat with
  | 0 => 1024
  | 1 => 32768
  | _ => 16777216
def migOld (e : W128) : Nat := (e.extractLsb' 0 36).toNat * 65536
def migNew (e : W128) : Nat := (e.extractLsb' 60 36).toNat * 65536
def migCovers (e : W128) (pa : Nat) : Bool :=
  (migState e == 1 || migState e == 2) && migOld e ≤ pa && pa < migOld e + 64 * migLines e

/-- Whether a frame's attribute record allows zero-line elision (R52, R445). (log 61, DESIGN CHOICE) -/
def State.elides (s : State) (pa : Nat) : Bool :=
  !isSp pa && (s.rawNat (hbmAddr (bhOfPa pa) ((s.bu (bhOfPa pa)).attrBase.toNat % 2 ^ 36 + 2 * (pa % 2 ^ 36 / 65536))) 2).testBit 9

/-- Records a line as elided, or as expanded, after it has been written: the controller elides a line that is all zero and
not poisoned wherever ZE allows it (R52). (log 61, DESIGN CHOICE) -/
def elide (sec : Nat) (s : State) : State :=
  let rest := s.elided.filter (· != sec)
  if s.elides (64 * sec) && !s.poison.contains sec && (Memory.rds s.mem (64 * sec) 64).all (· == 0) then
    { s with elided := sec :: rest }
  else { s with elided := rest }

/-- Sets or clears the poison of a sector; either way no bit error and no lost metadata of it is left (R52, R55). -/
def setPoison (sec : Nat) (bad : Bool) (s : State) : State :=
  let rest := s.poison.filter (· != sec)
  { s with poison := if bad then sec :: rest else rest
           lostMeta := s.lostMeta.filter (· != sec)
           flips := Map.del s.flips sec }

/-- What one line's bytes read as, their severity, and whether a correction was made (R52, R53, R55). -/
def readLine (s : State) (pa n : Nat) : List Byte × Nat × Bool :=
  let bs := Memory.rds s.mem pa n
  let (l, tm) := s.protection pa
  if s.poison.contains (pa / 64) then (bs, if s.lostMeta.contains (pa / 64) then 4 else poisonSev l, false)
  else match Map.get? s.flips (pa / 64) with
    | none => (bs, 0, false)
    | some (d, c) =>
      let j := judge l tm d c
      (bs.zipIdx.map fun e => e.1 ^^^ j.flips.extractLsb' (8 * (pa % 64 + e.2)) 8, sevOf l j (pa % 64) n, j.corrected)

/-- A corrected error is counted in its bulkhead (R381). -/
def countFix (pa : Nat) (corr : Bool) (s : State) : State :=
  if corr then s.modBu (bhOfPa pa) fun b => { b with corrected := b.corrected + 1 } else s

/-- Whether any element of a sector reads at a severity: the NEGLIGIBLE or BOUNDED flag of what reads all of it (R56). -/
def sectorHas (s : State) (sec sev : Nat) : Bool :=
  !s.poison.contains sec && (match Map.get? s.flips sec with
    | none => false
    | some (d, c) => let p := s.protection (64 * sec)
                     (judge p.1 p.2 d c).sev.contains sev)

/-- Moves a whole sector to another place: it is decoded under the record of its old place and encoded anew under that of the
new one, with its poison; GRAVE and STRUCTURAL errors become poison, and the flags of what was read come back, NEGLIGIBLE 1
and BOUNDED 2 (R52, R55, R56, R81). -/
def copySector (s : State) (src dst : Nat) : State × Nat :=
  let r := readLine s src 64
  let lost := s.lostMeta.contains (src / 64)
  let fl := (sectorHas s (src / 64) 1).toNat + 2 * (sectorHas s (src / 64) 2).toNat
  let s := countFix src r.2.2 (setPoison (dst / 64) (3 ≤ r.2.1) (s.rawWrite dst r.1))
  (elide (dst / 64) { s with lostMeta := if lost then dst / 64 :: s.lostMeta else s.lostMeta }, fl)

/-- Where the reactor that a connection names is now, past forwarding entries (R375). -/
def liveKey (s : State) : Nat → Nat → Nat
  | 0, t => t
  | f + 1, t =>
    if s.hasRe t then t
    else match (s.cl (cluOfReac t)).fwd.find? fun e => e.2.orid == ridOf t with
      | some (_, w) => liveKey s f (reacKey (cluOf w.ncoord) w.nrid)
      | none => t

/-- The reactor that a bulkhead's PAGER register names by its core and id, when V = 1 and it exists; one that has left that core is
found by its forwarding entry (R375, R436). (log 33, DEDUCED) -/
def pagerOf (s : State) (bh : Nat) : Option Nat :=
  let v := (s.bu bh).pager
  let u := (v.extractLsb' 0 27).toNat
  let r := reacKey (cluOf u) (v.extractLsb' 27 16).toNat
  if !v.getLsbD 63 then none
  else if s.hasRe r && (s.re r).core == coreOf u then some r
  else match (s.cl (cluOf u)).fwd.find? fun e => e.2.orid == ridOf r && e.2.ocore == idxOf u with
    | none => none
    | some (_, w) =>
      let k := liveKey s 8 (reacKey (cluOf w.ncoord) w.nrid)
      if s.hasRe k then some k else none

/-- The controller copies line PTR of a migration entry and advances PTR; at the last line STATE becomes forwarding and
the pager is notified, with the flags of every line copied (R56, R81, R82). (log 33, DEDUCED) -/
def migCopyLine (s : State) (bh i : Nat) : State :=
  let e := Map.get 0 (s.bu bh).migs i
  if migState e = 1 ∧ migPtr e < migLines e then
    let (s, fl) := copySector s (migOld e + 64 * migPtr e) (migNew e + 64 * migPtr e)
    let fl := (if migPtr e = 0 then 0 else Map.get 0 (s.bu bh).migFlags i) ||| fl
    let last := migPtr e + 1 = migLines e
    let e' : W128 := (if last then 2#2 else 1#2) ++ (e.extractLsb' 124 2 ++
      (BitVec.ofNat 25 (migPtr e + 1) ++ e.extractLsb' 0 99))
    let s := s.modBu bh fun b => { b with migs := Map.set b.migs i e', migFlags := Map.set b.migFlags i fl }
    if last then
      match pagerOf s bh with
      | some r => completeTo r (complEntry 0 (bh * 4096) 0 (migOld e) (32 * fl) 2) s
      | none => s
    else s
  else s

/-- Asks for a stop of a reactor at its next boundary; one that coincides with a stop in force, or already asked for, adds
nothing (R401). -/
def wantStop (r why : Nat) (s : State) : State :=
  s.modRe r fun x => if x.st == .stop || x.st == .move || x.stopWant then x else { x with stopWant := true, stopWhy := why }

/-- Whether the migration entry that covers an address has lost its metadata: what it covers reads at STRUCTURAL severity (R53). -/
def migLost (s : State) (pa : Nat) : Bool :=
  (s.bu (bhOfPa pa)).migBad.any fun i => migCovers (Map.get 0 (s.bu (bhOfPa pa)).migs i) pa

/-- The current home of the line at a physical address: an access to line PTR waits for its copy (Table 04-7). -/
def lineHome (s : State) (pa : Nat) : State × Nat :=
  match (s.bu (bhOfPa pa)).migs.find? fun e => migCovers e.2 pa with
  | none => (s, pa)
  | some (i, e) =>
    let l := (pa - migOld e) / 64
    if migState e = 2 ∨ l < migPtr e then (s, migNew e + (pa - migOld e))
    else if l = migPtr e then (migCopyLine s (bhOfPa pa) i, migNew e + (pa - migOld e))
    else (s, pa)

/-! ### Memory-side watchpoints (R337, R406) -/

/-- The path by which a bulkhead sees an agent's access: what comes from another bulkhead to its controller is fabric inbound, but for
what a Weevil or a host does (Table 05-1). -/
def Agent.pathAt (g : Agent) (bh : Nat) : Nat := if g.bh = bh ∨ 3 ≤ g.path then g.path else 4

/-- One access as the watchpoints of a bulkhead see it: the range that it reads, the range that it writes, and the bytes written
(R337). Each slot that it hits writes its record and stops its owner. -/
def watchAt (g : Agent) (bh : Nat) (rd wr : Option (Nat × Nat)) (data : List Byte) (s : State) : State :=
  if g.whole then s
  else (s.bu bh).mwatch.foldl (fun s w =>
    let m := w.2
    let meets (x : Nat × Nat) : Bool := m.pa < x.1 + x.2 && x.1 < m.pa + m.len
    let r := rd.filter meets
    let t := wr.filter meets
    if (t.isSome && m.wr) || (r.isSome && m.rd) then
      let all := r.toList ++ t.toList
      let first := max ((all.map (·.1)).min?.getD 0) m.pa
      let last := min ((all.map fun x => x.1 + x.2).max?.getD 0) (m.pa + m.len)
      let d := match t with
        | some x => leNat ((data.drop (max first x.1 - x.1)).take 8)
        | none => 0
      let s := trace bh 3 (fields [(8, first), (4, (last - first) % 65536 + 65536 * (t.isSome.toNat + 2 * r.isSome.toNat)),
        (4, ((s.re m.owner).core * 4) % 2 ^ 27 + 3 * 2 ^ 27), (2, ridOf m.owner), (1, w.1), (1, g.pathAt bh),
        (4, g.unit), (8, d), (8, s.ns bh), (22, 0)]) s
      wantStop m.owner 2 s
    else s) s

/-- The same for an access that reads, writes, or both, one range. -/
def watchHit (g : Agent) (rd wr : Bool) (pa n : Nat) (data : List Byte) (s : State) : State :=
  watchAt g (bhOfPa pa) (if rd then some (pa, n) else none) (if wr then some (pa, n) else none) data s

/-- Notes an access to a piece that crosses the fabric within the step: its packets are still to be sent (R414). -/
def crossing (g : Agent) (wr : Bool) (cls pa : Nat) (bs : List Byte) (s : State) : State :=
  if devOfBh (bhOfPa pa) = devOfBh g.bh then s
  else { s with crossed := s.crossed ++ [{ unit := g.unit, path := g.path, priv := g.priv, bh := g.bh, cls := cls,
                                              pa := pa, bytes := bs, wr := wr }] }

/-! ### Performing an access on one line -/

/-- The parts of a range that lie in single 64-byte lines, as (offset, address, bytes). -/
def lineParts : Nat → Nat → Nat → Nat → List (Nat × Nat × Nat)
  | 0, _, _, _ => []
  | f + 1, o, pa, n =>
    if n = 0 then []
    else
      let m := min n (64 - pa % 64)
      (o, pa, m) :: lineParts f (o + m) (pa + m) (n - m)

/-- The state a withdrawn frame is in, by 64 KiB frame (R75, R79). -/
def frameSt (s : State) (pa : Nat) : Option FrameSt :=
  if isSp pa then none else Map.get? (s.bu (bhOfPa pa)).frames (pa % 2 ^ 36 / 65536)

/-- The current home of a line, without the copy that an access to line PTR waits for: that line still reads alike in the
old frame (R81). -/
def homeOf (s : State) (pa : Nat) : Nat :=
  match (s.bu (bhOfPa pa)).migs.find? fun e => migCovers e.2 pa with
  | none => pa
  | some (_, e) => if migState e = 2 ∨ (pa - migOld e) / 64 < migPtr e then migNew e + (pa - migOld e) else pa

/-- Where an access to a line goes: line PTR to the new frame, once it has been copied (Table 04-7). -/
def goesTo (s : State) (pa : Nat) : Nat :=
  match (s.bu (bhOfPa pa)).migs.find? fun e => migCovers e.2 pa with
  | none => pa
  | some (_, e) => if migState e = 2 ∨ (pa - migOld e) / 64 ≤ migPtr e then migNew e + (pa - migOld e) else pa

/-- The lines of a piece that an access is about to reach are at the homes that it goes to: what stands at PTR has been copied
(R81). -/
def settleLines (ps : List Piece) (s : State) : State :=
  ps.foldl (fun s p => (lineParts (p.n / 64 + 2) 0 p.pa p.n).foldl (fun s e => (lineHome s e.2.1).1) s) s

/-- Whether a read of a piece would be held at a withdrawn frame (R75). -/
def heldPiece (s : State) (p : Piece) : Bool :=
  (lineParts (p.n / 64 + 2) 0 p.pa p.n).any fun e => (frameSt s (goesTo s e.2.1)).isSome

/-- Whether reads wait at a withdrawn frame that every gate lets them reach (R37, R75, R121). -/
def heldReads (s : State) (g : Agent) (ps : List Piece) : Bool :=
  ps.all (fun p => reach s g p .r == .ok) && ps.any (heldPiece s)

/-- Adds to a counter of a frame's side-table entry: bytes in 64-byte units, rounded up; `lo` is the field's low bit, 8
for RM, 48 for WR, 88 for RD (R83, R84). A counter saturates and sets SAT. (log 31, DEDUCED) -/
def sideAdd (pa lo n : Nat) (s : State) : State :=
  if isSp pa then s
  else
    let b := bhOfPa pa
    let ea := hbmAddr b ((s.bu b).sideBase.toNat % 2 ^ 36 + 16 * (pa % 2 ^ 36 / 65536))
    let v := s.rawNat ea 16
    let c := (v >>> lo) % 2 ^ 40
    let c' := min (c + (n + 63) / 64) (2 ^ 40 - 1)
    let sat := 2 ^ 40 ≤ c + (n + 63) / 64
    s.put ea (leBytes 16 ((v - c * 2 ^ lo + c' * 2 ^ lo) ||| (if sat then 0x80 else 0)))

/-- The volume that the gate of a frame's bulkhead counts for a request that it admits from elsewhere, in the entry of the
page's first frame (R83). -/
def remoteAdd (g : Agent) (p : Piece) (s : State) : State :=
  if bhOfPa p.pa = g.bh then s else sideAdd (p.pa / lvlSize p.lvl * lvlSize p.lvl) 8 p.n s

/-- The lines that a bulkhead's memory-side cache holds: 96 MiB (R2, R42). (log 62, DESIGN CHOICE) -/
def cacheCap : Nat := 1572864

/-- Marks a line as held by the memory-side cache (R42); where its bulkhead's cache is full, the line of the lowest address
makes room, and is written back if it is dirty. (log 62, DESIGN CHOICE) -/
def cacheLine (pa : Nat) (dirty : Bool) (s : State) : State :=
  if isSp pa then s
  else
    let k := pa / 64
    let c := Map.set s.cached k (dirty || Map.get false s.cached k)
    let mine := c.filter fun e => e.1 / 2 ^ 31 == k / 2 ^ 31
    let out := if cacheCap < mine.length then (mine.find? fun e => e.1 != k).map (·.1) else none
    { s with cached := match out with
      | some o => Map.del c o
      | none => c }

/-- What a read gives back: bytes, severity of the worst element, the bulkheads that gave NEGLIGIBLE bits, where BOUNDED bits
were read first and by which unit, the first byte's generic address at which GRAVE or worse arose, and the state (cache,
watch hits, corrected count). -/
structure ReadOut where
  st : State
  bytes : List Byte := []
  sev : Nat := 0
  neg : List Nat := []
  bnd : Option (Nat × Nat) := none
  at3 : Nat := 0
  held : Bool := false

/-- Reads a piece at its target. A read of a withdrawn frame is held (R75). -/
def readPiece (g : Agent) (p : Piece) (o : ReadOut) : ReadOut :=
  (lineParts (p.n / 64 + 2) 0 p.pa p.n).foldl (fun o e =>
    let (s, pa) := lineHome o.st e.2.1
    if (frameSt s pa).isSome then { o with held := true, bytes := o.bytes ++ List.replicate e.2.2 0 }
    else
      let (bs, sev, corr) := readLine s pa e.2.2
      let sev := if migLost s e.2.1 then 4 else sev
      let s := cacheLine pa false (watchHit g true false pa e.2.2 [] s)
      let s := if corr then countEv g.unit 0x0B 1 (countFix pa true s) else s
      { st := s, bytes := o.bytes ++ bs, sev := max o.sev sev,
        neg := if sev == 1 && !o.neg.contains (bhOfPa pa) then o.neg ++ [bhOfPa pa] else o.neg
        bnd := if sev == 2 && o.bnd.isNone then some (p.va + e.1, unitOfPa pa) else o.bnd
        at3 := if 3 ≤ sev ∧ o.sev < 3 then p.va + e.1 else o.at3, held := o.held }) o

def readPieces (g : Agent) (ps : List Piece) (s : State) : ReadOut :=
  ps.foldl (fun o p => readPiece g p o) { st := s }

/-- The bytes that the bounce buffer of a bulkhead holds at most (R75): 64 MiB as whole lines. -/
def bounceCap : Nat := 1048576

/-- Decodes a sector and encodes it anew before a partial write of bytes o to o + n - 1 of it is merged: what could be corrected
is corrected, and an uncorrectable element that the write leaves standing poisons the sector where it is GRAVE or worse
(R55, R227). (log 63, DEDUCED) -/
def openLine (sec o n : Nat) (s : State) : State :=
  match Map.get? s.flips sec with
  | none => s
  | some (d, c) =>
    let p := s.protection (64 * sec)
    let j := judge p.1 p.2 d c
    let sev := max (sevOf p.1 j 0 o) (sevOf p.1 j (o + n) (64 - o - n))
    let bad := s.poison.contains sec || 3 ≤ sev
    let lost := s.lostMeta
    let s := s.rawWrite (64 * sec) ((Memory.rds s.mem (64 * sec) 64).zipIdx.map fun e =>
      e.1 ^^^ j.flips.extractLsb' (8 * e.2) 8)
    countFix (64 * sec) j.corrected { setPoison sec bad s with lostMeta := lost }

/-- Puts bytes within one line: memory, poison, bit errors, elision and the cache (R52, R55); a whole-sector write clears
poison. (log 61, DESIGN CHOICE) (log 63, DEDUCED) -/
def putLine (pa : Nat) (bs : List Byte) (s : State) : State :=
  let sec := pa / 64
  let s := if bs.length = 64 then setPoison sec false s else openLine sec (pa % 64) bs.length s
  cacheLine pa true (elide sec (s.rawWrite pa bs))

/-- Writes bytes within one line for an agent, with watch hits. -/
def writeLine (g : Agent) (pa : Nat) (bs : List Byte) (s : State) : State :=
  putLine pa bs (watchHit g false true pa bs.length bs s)

/-- A line's write as the controller takes it (R75, R76, R79): true where it goes to the line's frame; while the frame is
withdrawn, or is filling unless the writer is privileged in the owning partition, false where the bounce buffer has room
for it, and `none` where it has not. (log 64, DESIGN CHOICE) -/
def lineTaken (g : Agent) (pa : Nat) (s : State) : Option Bool :=
  match frameSt s pa with
  | none => some true
  | some f =>
    if f = .filling ∧ g.priv ∧ s.partOf? (bhOfPa pa) = some g.part then some true
    else if bounceCap ≤ (s.bu (bhOfPa pa)).bounce.length then none else some false

/-- Enters a line in the bounce buffer of its bulkhead, with watch hits (R75, R337). -/
def bounceLine (g : Agent) (pa : Nat) (bs : List Byte) (bad : Bool) (s : State) : State :=
  (watchHit g false true pa (if bad then 64 else bs.length) bs s).modBu (bhOfPa pa) fun b => { b with bounce := b.bounce ++
    [{ pa := pa / 64 * 64, bytes := bs.zipIdx.map fun x => (pa % 64 + x.2, x.1), poison := bad }] }

/-- Writes a piece at its target, line by line: to its home, or to the bounce buffer. A write that the buffer has no room for
keeps the lines taken, and fails at the last line refused (R75). (log 64, DESIGN CHOICE) -/
def writePiece (g : Agent) (p : Piece) (bs : List Byte) (s : State) : State × Result :=
  (lineParts (p.n / 64 + 2) 0 p.pa p.n).foldl (fun a e =>
    let (s, pa) := lineHome a.1 e.2.1
    let part := (bs.drop e.1).take e.2.2
    match lineTaken g pa s with
    | some true => (writeLine g pa part s, a.2)
    | some false => (bounceLine g pa part false s, a.2)
    | none => (s, .bounceFull (p.va + e.1))) (s, .ok)

/-- Poisons the sector that a physical address lies in, at its home, as a write of the whole sector; while its frame is
withdrawn the poison goes with a line of the bounce buffer (R55, R75, R339). -/
def poisonLine (g : Agent) (pa : Nat) (s : State) : State × Result :=
  let (s, a) := lineHome s (pa / 64 * 64)
  match lineTaken g a s with
  | some true => ((fun s => { s with elided := s.elided.filter (· != a / 64) }) (setPoison (a / 64) true (watchHit g false true a 64 [] s)), .ok)
  | some false => (bounceLine g a [] true s, .ok)
  | none => (s, .bounceFull pa)

/-- Poisons every sector of a physical range. -/
def poisonSectors (g : Agent) (pa n : Nat) (s : State) : State :=
  if n = 0 then s
  else (List.range ((pa + n - 1) / 64 + 1 - pa / 64)).foldl (fun s i => (poisonLine g ((pa / 64 + i) * 64) s).1) s

/-! ### Regions and scratch space -/

/-- Whether a scratchpad offset of a core lies in a named region of a reactor placed there (R27). -/
def inRegion (s : State) (core off : Nat) : Bool :=
  s.reac.any fun r => r.2.core == core && r.2.regions.any fun g => g.2.1 ≤ off && off < g.2.1 + g.2.2
/-- Whether it lies in a control block, queue or ring. -/
def inService (s : State) (core off : Nat) : Bool :=
  s.reac.any fun e => let r := e.2
    r.core == core && ((r.ctl ≤ off && off < r.ctl + 1024) || (r.ring ≤ off && off < r.ring + 32 * r.depth) ||
      (r.cq ≤ off && off < r.cq + 1024) || (r.eq ≤ off && off < r.eq + 1024))
/-- Scratch space of a core: banks 0 to 11 outside every region, control block, queue and ring (R292). -/
def isScratch (s : State) (core pa : Nat) : Bool :=
  isSp pa && spCore pa == core && spOff pa < 0x60000 && !inRegion s core (spOff pa) && !inService s core (spOff pa)

/-- Whether the commit window holds a store of a restartable activation to this place (R100). (log 100, DESIGN CHOICE) -/
def holds (s : State) (u : Nat) (p : Piece) : Bool :=
  if isSp p.pa then spCore p.pa != coreOf u || (spOff p.pa < 0x60000 && (inRegion s (coreOf u) (spOff p.pa) ||
    inRegion s (coreOf u) (spOff p.pa + p.n - 1)))
  else true

/-! ### Post-commit ranges (R384) -/

/-- Adds a sector to a list of (base, count) records, extending an adjacent one. -/
def addSector : List (Nat × Nat) → Nat → List (Nat × Nat)
  | [], x => [(x * 64, 1)]
  | (b, n) :: rs, x =>
    if b ≤ x * 64 ∧ x * 64 < b + 64 * n then (b, n) :: rs
    else if x * 64 = b + 64 * n then (b, n + 1) :: rs
    else if x * 64 + 64 = b then (x * 64, n + 1) :: rs
    else (b, n) :: addSector rs x

/-- Whether a sector lies in a thread set's own private area or in its core's scratch space: what is written there is not
entered. -/
def unlisted (s : State) (u sec : Nat) : Bool :=
  isScratch s (coreOf u) (64 * sec) ||
    (isSp (64 * sec) && spCore (64 * sec) == coreOf u && 0x60000 + tsOf u * 0x4000 ≤ spOff (64 * sec) &&
      spOff (64 * sec) < 0x60000 + (tsOf u + 1) * 0x4000)

/-- Enters the sectors of a write that an activation past its commit point causes. -/
def addRange (u : Nat) (pa n : Nat) (s : State) : State :=
  let a := s.act u
  if a.restartable || (s.th u).act.isNone then s
  else s.modAct u fun a =>
    (List.range ((pa + n - 1) / 64 + 1 - pa / 64)).foldl (fun a i =>
      if unlisted s u (pa / 64 + i) then a
      else
        let rs := addSector a.ranges (pa / 64 + i)
        if rs.length ≤ 1024 then { a with ranges := rs } else { a with rangeOvf := true }) a
/-- The same for work that goes on after its issue: the list is that of the activation that caused it. -/
def addRangeOf (u gen pa n : Nat) (s : State) : State := if (s.th u).gen = gen then addRange u pa n s else s

end Sys2Proof.Machine
end

