-- ==== Sys2Proof/Machine/Order.lean ====
section
/-! DEFINITION. Order.lean: scopes (R87), the order of a thread set's requests on their way (R88 to R93, R106 to R110), and what
is still outstanding (R99, R101, R107, R108). -/

namespace Sys2Proof.Machine

/-! ### Scopes (Table 05-2) -/

/-- The agents of Table 05-1, by the key of the unit that each belongs to. -/
inductive AgentOf where
  | threadSet (u : Nat)
  | copyEngine (core : Nat)
  | matrixArray (core : Nat)
  | weevil (bh : Nat)
  | gate (bh : Nat)
  | hostPort (bh : Nat)
  deriving DecidableEq, Repr

/-- The core of an agent that belongs to one, and the bulkhead of any agent. -/
def AgentOf.core? : AgentOf → Option Nat
  | .threadSet u => some (coreOf u)
  | .copyEngine c | .matrixArray c => some c
  | _ => none
def AgentOf.bh : AgentOf → Nat
  | .threadSet u => bhOf u
  | .copyEngine c | .matrixArray c => bhOfCore c
  | .weevil b | .gate b | .hostPort b => b

/-- Whether a scope named by thread set u contains an agent. At thread-set scope the engines stand for the commands that the
thread set issued to them. -/
def inScope (sc u : Nat) (a : AgentOf) : Bool :=
  match sc with
  | 0 => match a with
    | .threadSet v => v == u
    | .copyEngine c | .matrixArray c => c == coreOf u
    | _ => false
  | 1 => a.core? == some (coreOf u)
  | 2 => (a.core?.map cluOfCore) == some (cluOf u)
  | 3 => a.bh == bhOf u
  | 4 => devOfBh a.bh == devOf u
  | _ => true

/-- Whether a scope reaches beyond the issuer's core, to the other cores of its cluster: the scopes of R107. -/
def wideScope (sc u : Nat) : Bool := inScope sc u (.threadSet (u ^^^ 4))

/-! ### Requests that are not performed yet -/

/-- A request that has not been performed at its target: its thread set, its pieces, whether it is a store, its release order,
whether that holds at cluster scope or wider, and the release fences before it. -/
structure Req where
  ts : Nat
  ps : List Piece
  store : Bool := false
  rel : Bool := false
  wide : Bool := true
  epoch : Nat := 0
  deriving DecidableEq, Repr

def StoreReq.req (q : StoreReq) : Req :=
  { ts := q.ts, ps := [q.p], store := true, rel := q.rel, wide := q.wide, epoch := q.epoch }

def unperformed : Flight → Option Req
  | .load ts _ d _ _ rel _ _ none => some { ts := ts, ps := d.lanes.flatMap (·.2), rel := rel, wide := false }
  | .store q => if q.performed then none else some q.req
  | .weevil q => if q.reply.isSome then none else some { ts := q.ts, ps := [q.p], rel := q.rel, wide := false }
  | _ => none

/-- The thread set that an access in flight, performed or not, has not been acknowledged to. -/
def unacked : Flight → Option Nat
  | .load ts .. => some ts
  | .store q => some q.ts
  | .weevil q => some q.ts
  | _ => none

/-- Whether two pieces share a 64-byte line. -/
def lineMeets (p q : Piece) : Bool := p.pa / 64 ≤ (q.pa + q.n - 1) / 64 && q.pa / 64 ≤ (p.pa + p.n - 1) / 64

/-- Whether one of two pieces of one agent, in program order, waits for the other: an SO access for and before any other, DV
accesses among themselves, and accesses to one line (R90, R92, R93, R106, R110). -/
def pieceOrder (p q : Piece) : Bool := p.ord == 0 || q.ord == 0 || (p.ord == 3 && q.ord == 3) || lineMeets p q

/-- Whether an earlier request keeps a later one back. Of one thread set: by the order of their pieces; before a store with
release order, at cluster scope or wider everywhere, below it at one gate (R108, R110); and stores on either side of a release
fence (R102). Of one core: a store before what touches its line, so that the core's agents see a drain as one step (R101). -/
def holdsBack (o q : Req) : Bool :=
  (o.ts == q.ts &&
    ((q.rel && (q.wide || o.ps.any fun p => q.ps.any fun r => bhOfPa p.pa == bhOfPa r.pa)) ||
      (o.store && q.store && o.epoch < q.epoch) || o.ps.any fun p => q.ps.any fun r => pieceOrder p r)) ||
  (o.store && coreOf o.ts == coreOf q.ts && o.ps.any fun p => q.ps.any fun r => lineMeets p r)

/-- Whether an earlier request in flight keeps a request of place `id` back; a store with release order at cluster scope or wider goes
only once every earlier access of its thread set has been acknowledged (R107). (log 57, DESIGN CHOICE) -/
def blocked (s : State) (id : Nat) (q : Req) : Bool :=
  s.flight.any fun e => e.1 < id && (((unperformed e.2).any fun o => holdsBack o q) ||
    (q.store && q.rel && q.wide && unacked e.2 == some q.ts))

/-- Whether a request in flight may be performed now (R110). -/
def gateReady (s : State) (id : Nat) : Bool :=
  match (s.fl? id).bind unperformed with
  | none => false
  | some q => !blocked s id q

/-! ### What is outstanding -/

/-- Stores of a thread set not yet acknowledged (R107). (log 29, DEDUCED) -/
def storesOut (s : State) (u : Nat) : Bool :=
  s.flight.any fun e => match e.2 with
    | .store q => q.ts == u
    | _ => false
/-- Weevil operations of a thread set whose reply has not been taken. -/
def weevilsOut (s : State) (u : Nat) : Bool :=
  s.flight.any fun e => match e.2 with
    | .weevil q => q.ts == u
    | _ => false
/-- Every earlier access of a thread set has been acknowledged, returned or performed (R107). -/
def allAcked (s : State) (u : Nat) : Bool := !storesOut s u && !s.loading u && !weevilsOut s u

/-- Requests of a thread set that are not performed, at SO or DV pages. -/
def soDvOut (s : State) (u : Nat) : Bool :=
  s.flight.any fun e => (unperformed e.2).any fun o => o.ts == u && o.ps.any fun p => p.ord == 0 || p.ord == 3

/-- Whether an acquire of a thread set is still to be met: a load or Weevil operation with acquire order whose answer has not
been taken, or a store to an SO page that is not acknowledged. No later access of the thread set begins (R88, R90, R112). -/
def acquiring (s : State) (u : Nat) : Bool :=
  s.flight.any fun e => match e.2 with
    | .load ts _ _ _ acq .. => ts == u && acq
    | .weevil q => q.ts == u && q.acq
    | .store q => q.ts == u && q.p.ord == 0
    | _ => false

/-- Whether an access of a reactor's activations is still to be performed, or a command of one that has ended is still to post its
completion: its next activation does not start (R99, R218). -/
def reactorOut (s : State) (r : Nat) : Bool :=
  s.flight.any fun e => match e.2 with
    | .store q => q.reactor == r && !q.performed
    | .weevil q => q.reactor == r && q.reply.isNone
    | .engine ts q _ _ _ g .. => q == r && !((s.th ts).gen == g && (s.th ts).act.isSome)
    | _ => false

end Sys2Proof.Machine
end

