-- ==== Sys2Proof/Machine/Seq.lean ====
section
/-! DEFINITION. Seq.lean: the cluster sequencer: queues, free-entry counts and sends (R341 to R344), safety and joins (R128,
R132, R350 to R353), stragglers (R142 to R145, R361), and the ends of an activation: done, cancelled, aborted (R131,
R133, R293, R385). -/

namespace Sys2Proof.Machine

/-! ### Tags (R126, R127) -/

/-- Tag order. -/
def tagLt (a b : W64 × W32) : Bool := a.1 < b.1 || (a.1 == b.1 && a.2 < b.2)
def tagLe (a b : W64 × W32) : Bool := !tagLt b a
def QEntry.tag (q : QEntry) : W64 × W32 := (q.tagt, q.tagm)
def QEntry.port (q : QEntry) : Nat := (q.route.extractLsb' 16 6).toNat
def QEntry.late (q : QEntry) : Bool := q.flags.getLsbD 0
def QEntry.cancel (q : QEntry) : Bool := q.flags.getLsbD 1
def QEntry.host? (q : QEntry) : Bool := q.flags.getLsbD 3
def QEntry.compl (q : QEntry) : Bool := q.flags.getLsbD 4

/-- The tag of a send on a connection with after-delay L, or the TVAL of its overflow (R127, Table 19-3). -/
def sendTag (tag : W64 × W32) (l : Nat) : Except Nat (W64 × W32) :=
  if l = 0 then if tag.2.toNat + 1 < 2 ^ 32 then .ok (tag.1, tag.2 + 1) else .error 0
  else if tag.1.toNat + l < 2 ^ 64 then .ok (tag.1 + BitVec.ofNat 64 l, 0) else .error 1

/-! ### Connections (Table 07-3) -/

def Conn.valid (c : Conn) : Bool := c.bits.getLsbD 0
/-- Valid, and its target neither released nor lost (R138, R394). -/
def Conn.stands (c : Conn) : Bool := c.valid && !c.dead && !c.lost
def Conn.oport (c : Conn) : Nat := (c.bits.extractLsb' 1 4).toNat
def Conn.after (c : Conn) : Nat := (c.bits.extractLsb' 55 32).toNat
def Conn.bound (c : Conn) : Nat := (c.bits.extractLsb' 87 24).toNat
/-- The bulkhead key of a reactor's cluster. -/
def bhOfReac (r : Nat) : Nat := bhOfClu (cluOfReac r)

/-- Sets one connection of a reactor. -/
def modConn (r i : Nat) (f : Conn → Conn) (s : State) : State :=
  s.modRe r fun x => { x with conns := x.conns.zipIdx.map fun c => if c.2 = i then f c.1 else c.1 }

/-- Adds one to a saturating 16-bit field of the control block: NLATE 0x34, NSTRAG 0x36 (Table 07-4). -/
def bumpCtl (r off : Nat) (s : State) : State :=
  let pa := (s.re r).ctlPa off
  if s.hasRe r then s.put pa (leBytes 2 (min (s.rawNat pa 2 + 1) 0xFFFF)) else s

/-- The events of a connection that wait in the send queue, oldest first. -/
def waitingOn (s : State) (r i : Nat) : List (Nat × Msg) :=
  s.flight.filterMap fun e => match e.2 with
    | .event m => if m.reactor = r ∧ m.conn = i then some (e.1, m) else none
    | _ => none

/-- Takes an event out of its core's send queue. -/
def unqueue (id : Nat) (m : Msg) (s : State) : State :=
  s.modCo (s.re m.reactor).core fun k => { k with sendq := k.sendq.filter (· != id) }

/-- A member that events can no longer reach: declared dead, behind a port that is down, or retired (R121, R396). -/
def eventDead (s : State) (fromBh tb : Nat) : Bool :=
  (s.bu tb).retired || (devOfBh fromBh != devOfBh tb && planeDead s (devOfBh fromBh) tb)

/-- Whether the sender of an event is dead to the target's bulkhead, which then keeps the unit (R344, R424). -/
def senderDead (s : State) (r q : Nat) : Bool :=
  let b := bhOfReac r
  devOfBh b != devOfBh (bhOfReac q) &&
    ((s.bu b).deadMap.contains (devOfBh (bhOfReac q)) || !portUp s b || (s.bu b).noPort)

/-- An event leaves its core on a connection (R114, R130, R344): its send time is taken, LATE is judged when the target
lies on another bulkhead, and the entry is on its way. -/
def depart (id : Nat) (m : Msg) (c : Conn) (own : Owner) (s : State) : State :=
  let bh := bhOfReac m.reactor
  let late := bhOfReac c.target ≠ bh ∧ m.tagt.toNat < s.ticks bh
  let q : QEntry :=
   { tagt := m.tagt, tagm := m.tagm, sender := m.sender, route := BitVec.ofNat 24 (ridOf c.target + c.tport * 65536),
     flags := if late then m.flags ||| 1 else m.flags, sendt := BitVec.ofNat 32 (s.ns bh), payload := m.payload }
  let u := m.sender.toNat
  let s := if late then bumpCtl m.reactor 0x34 s else s
  let s := if m.flags.getLsbD 1 then s else countEv u 0x08 1 (if late then countEv u 0x09 1 s else s)
  (unqueue id m s).setFl id (.entry c.target q own)

/-- Whether a cancel token still waits for the accesses that its thread set made before it (R107, R114). -/
def tokenWaits (s : State) (id : Nat) (m : Msg) : Bool :=
  match m.after with
  | none => false
  | some u => s.flight.any fun e => e.1 < id && (match e.2 with
      | .store q => q.ts == u
      | .weevil q => q.ts == u
      | _ => false)

/-- What the oldest waiting event of a connection does when it can: it leaves, or it is discarded with a record because its
target was released (R138 step 4) or is dead (R121). True when it no longer waits. -/
def tryLeave (r i : Nat) (s : State) : State × Bool :=
  match waitingOn s r i, (s.re r).conns[i]? with
  | (id, m) :: _, some c =>
    let drop (cause : Nat) := ((errorTo r { tagt := m.tagt, tagm := m.tagm, peer := BitVec.ofNat 32 (c.tcore * 4),
                                             cause := BitVec.ofNat 8 cause } (unqueue id m s)).endFl id, true)
    if tokenWaits s id m then (s, false)
    else if c.dead then drop 14
    else if bhOfReac c.target ≠ bhOfReac r ∧ eventDead s (bhOfReac r) (bhOfReac c.target) then drop 2
    else if 0 < c.f then (depart id m c (.conn r i) (modConn r i (fun c => { c with f := c.f - 1 }) s), true)
    else if c.granted then
      (depart id m c (.spareOf r i) (modConn r i (fun c => { c with granted := false, asked := false }) s), true)
    else (s, false)
  | _, _ => (s, false)

/-- Lets the events of a connection leave in issue order, as far as its free entries allow. -/
def drainConn : Nat → Nat → Nat → State → State
  | 0, _, _, s => s
  | f + 1, r, i, s => match tryLeave r i s with
    | (s, true) => drainConn f r i s
    | (s, false) => s

/-- An event enters the core's send queue, and leaves when it can (R243). -/
def leave (m : Msg) (s : State) : State :=
  let c := (s.re m.reactor).core
  drainConn 1 m.reactor m.conn ((s.modCo c fun k => { k with sendq := k.sendq ++ [s.nextId] }).emit (.event m))
def sendRoom (s : State) (core n : Nat) : Bool := (s.co core).sendq.length + n ≤ 64

/-! ### Queue entries -/

/-- The 32 bytes of a queue entry (Table 18-1). -/
def QEntry.bytes (q : QEntry) : List Byte :=
  fields [(8, q.tagt.toNat), (4, q.tagm.toNat), (4, q.sender.toNat), (3, q.route.toNat), (1, q.flags.toNat),
    (4, q.sendt.toNat), (8, q.payload.toNat)]

/-- The ring slot of the next arrival: the first free one after the slot of the latest arrival (R342); where the ring has come round,
it uses the gap that an entry taken out of order has left. (log 95, DESIGN CHOICE) -/
def freeSlot (r : Reactor) : Nat :=
  let after := (r.entries.getLast?.map (·.slot + 1)).getD 0
  (((List.range r.depth).map fun i => (after + i) % r.depth).find? fun i => r.entries.all fun e => e.slot != i).getD 0

/-- Frees an entry: its unit of F goes back to the connection that used it, a spare to the pool, which serves a queued
request; a unit of a member that the target holds dead returns to the target itself (R344). -/
def freeEntry (r slot : Nat) (s : State) : State :=
  match (s.re r).entries.find? fun e => e.slot == slot with
  | none => s
  | some e =>
    let s := s.modRe r fun x => { x with entries := x.entries.filter fun e => e.slot != slot }
    match e.owner with
    | .conn q i => if senderDead s r q then s.modRe r fun x => { x with spares := x.spares + 1 }
        else s.emit (.credit q i)
    | .ingress => s.modRe r fun x => { x with ingressFree := x.ingressFree + 1 }
    | .start _ | .spareOf .. | .spare | .unheld => s.modRe r fun x => { x with spares := x.spares + 1 }

/-- Physical address of a ring slot. -/
def slotPa (r : Reactor) (slot : Nat) : Nat := spAddr r.core (r.ring + 32 * slot)

/-! ### Pins (R67) -/

/-- The frame key of a physical page within its bulkhead. -/
def frameOf (pa : Nat) : Nat := pa % 2 ^ 36 / 65536
def pinsAt (s : State) (pa : Nat) : Nat := Map.get 0 (s.bu (bhOfPa pa)).pinCount (frameOf pa)
def pinAdd (pa : Nat) (s : State) : State :=
  s.modBu (bhOfPa pa) fun b => { b with pinCount := Map.set b.pinCount (frameOf pa) (Map.get 0 b.pinCount (frameOf pa) + 1) }
def pinSub (pa : Nat) (s : State) : State :=
  s.modBu (bhOfPa pa) fun b =>
    let n := Map.get 0 b.pinCount (frameOf pa) - 1
    { b with pinCount := if n = 0 then Map.del b.pinCount (frameOf pa) else Map.set b.pinCount (frameOf pa) n }
/-- Releases every pin of an activation, and its late translation table entries (R67, R74). -/
def releasePins (a : Act) (s : State) : State := a.pins.foldl (fun s p => pinSub p s) s
def dropLate (u : Nat) (s : State) : State :=
  let mine := (s.co (coreOf u)).late.filter fun e => (e.2.extractLsb' 78 2).toNat == tsOf u
  let s := mine.foldl (fun s e =>
    let f : W64 := e.2.extractLsb' 0 64
    let pa := (f.extractLsb' 16 36).toNat * 65536
    if isSp pa then s else pinSub pa s) s
  s.modCo (coreOf u) fun k => { k with late := k.late.filter fun (e : Nat × W128) => (e.2.extractLsb' 78 2).toNat != tsOf u }

/-! ### Cancel tokens (R133) -/

/-- Sends a cancel token on every valid connection of every output port, behind the accesses of thread set `after` where one
ran the activation (R114); an overflow is recorded in place of it. -/
def sendTokens (r : Nat) (tag : W64 × W32) (sender : W32) (after : Option Nat) (s : State) : State :=
  ((s.re r).conns.zipIdx).foldl (fun s c =>
    if c.1.valid then
      match sendTag tag c.1.after with
      | .ok t => leave
          { reactor := r, conn := c.2, tagt := t.1, tagm := t.2, sender := sender, flags := 2, after := after } s
      | .error _ => errorTo r
          { tagt := tag.1, tagm := tag.2, cause := 24,
            peer := BitVec.ofNat 32 (c.1.tcore * 4), aux := BitVec.ofNat 32 c.1.oport } s
    else s) s

/-- Moves a horizon up to a tag (R131). -/
def raiseHorizon (h : Option (W64 × W32)) (t : W64 × W32) : Option (W64 × W32) :=
  match h with
  | none => some t
  | some x => if tagLt x t then some t else some x

/-! ### Safety (R128) -/

/-- Reactors of the same bulkhead with a connection to one of a set. -/
def preds (s : State) (rs : List Nat) : List Nat :=
  (s.reac.filter fun e => !rs.contains e.1 && e.2.conns.any fun c =>
    c.stands && rs.contains (liveKey s 4 c.target) && bhOfReac (liveKey s 4 c.target) = bhOfReac e.1).map (·.1)
/-- The set closed under predecessors, in at most `fuel` rounds. -/
def closure (s : State) : Nat → List Nat → List Nat
  | 0, rs => rs
  | f + 1, rs => match preds s rs with
    | [] => rs
    | ps => closure s f (rs ++ ps)

/-- The tags of what waits at, or runs in, a reactor. -/
def busyTags (s : State) (r : Nat) : List (W64 × W32) :=
  let x := s.re r
  (x.entries.filter fun e => e.st == .waiting && e.q.port != 0x32).map (fun e => e.q.tag) ++
    (x.requeued.filter fun p => p.act.kind != .page).map (fun p => p.act.q.tag) ++
    (x.pend.map fun p => p.act.q.tag).toList ++
    (match x.runTs with
     | some u => [(s.act u).q.tag]
     | none => [])

def stopInForce (s : State) (bh : Nat) : Bool :=
  (Map.get {} (s.de (devOfBh bh)).chan (s.partOf bh)).stop && s.running bh

/-- Conditions 1 and 3 of R128, and the dispatch stop of R347; condition 2 is the choice of the head. -/
def safe (s : State) (r : Nat) (tag : W64 × W32) : Bool :=
  let bh := bhOfReac r
  let x := s.re r
  tag.1.toNat + x.dmax + s.boundE bh ≤ s.ticks bh &&
    !(stopInForce s bh && 0 < x.dmax) &&
    ((closure s s.reac.length [r]).filter (· != r)).all fun q => (busyTags s q).all fun t => !tagLt t tag

/-! ### Records of an activation's end (R398, R402, R403) -/

def Act.record (a : Act) (u outcome tdone : Nat) : Rec :=
  { kind := 0, tagt := a.q.tagt.toNat, tagm := a.q.tagm.toNat, coord := u, route := a.q.route.toNat,
    flags := a.q.flags.toNat, sender := a.q.sender.toNat, entry := a.entry.toNat, tarr := a.tarr, tdisp := a.tdisp,
    tdone := tdone, sendt := a.q.sendt.toNat, outcome := outcome }

/-- Enters an activation's three delays in its core's delay table (R402, R403). -/
def delaySplit (core : Nat) (a : Act) (tdone : Nat) (s : State) : State :=
  if a.q.host? || a.q.compl || a.kind == .trap then s
  else s.modCo core fun k =>
    let src := a.q.sender.toNat % 2 ^ 27 / 4
    let i := match k.delays.find? fun e => e.2.src == src with
      | some e => e.1
      | none => match (List.range 16).find? fun i => k.delays.all fun e => e.1 != i with
        | some i => i
        | none => (k.delays.foldl (fun m e => if e.2.n < m.2 ∨ (e.2.n = m.2 ∧ e.1 < m.1) then (e.1, e.2.n) else m)
            (16, 2 ^ 33)).1
    let old := match k.delays.find? fun e => e.1 == i && e.2.src == src with
      | some e => e.2
      | none => { src := src }
    let tr := sgn ((a.tarr + 2 ^ 32 - a.q.sendt.toNat % 2 ^ 32) % 2 ^ 32) 32
    let t := tr.toNat
    let new : Delay :=
      { src := src, n := min (old.n + 1) (2 ^ 32 - 1), transit := min (old.transit + t) (2 ^ 48 - 1),
        queue := min (old.queue + (a.tdisp - a.tarr)) (2 ^ 48 - 1), run := min (old.run + (tdone - a.tdisp)) (2 ^ 48 - 1),
        maxtr := max old.maxtr t, neg := min (old.neg + (if tr < 0 then 1 else 0)) (2 ^ 20 - 1) }
    { k with delays := (i, new) :: k.delays.filter fun e => e.1 != i }

/-! ### Forming activations -/

/-- What may head a reactor's queue: a waiting entry, or a pending activation returned to the index. -/
inductive Head where
  | entry (e : Entry)
  | pend (p : Pending)

def Head.key (h : Head) : Bool × (W64 × W32) × Nat × Nat × Nat :=
  match h with
  | .entry e => (e.late, e.q.tag, e.q.sender.toNat, e.q.port, e.order)
  | .pend p => (p.act.kind == .late, p.act.q.tag, p.act.q.sender.toNat, p.act.q.port, 0)

/-- Index order: stragglers first, then tag, sender, port, arrival (R129, R342, R361). -/
def headLt (a b : Head) : Bool :=
  let (la, ta, sa, pa, oa) := a.key
  let (lb, tb, sb, pb, ob) := b.key
  if la != lb then la
  else if tagLt ta tb then true
  else if tagLt tb ta then false
  else if sa != sb then sa < sb
  else if pa != pb then pa < pb
  else oa < ob

def heads (x : Reactor) : List Head :=
  (x.entries.filter fun e => e.st == .waiting && e.q.port != 0x32).map .entry ++
    (x.requeued.filter fun p => p.act.kind != .page).map .pend
def headOf (x : Reactor) : Option Head :=
  (heads x).foldl (fun m h => match m with
    | none => some h
    | some k => if headLt h k then some h else some k) none

/-- The reactor whose connection an entry came on. -/
def Owner.sender : Owner → Option Nat
  | .conn r _ => some r
  | .spareOf r _ => some r
  | .start r => r
  | _ => none

/-- An activation for a queue entry of a reactor: entry address and kind (R131, R141, R143). -/
def newAct (r : Nat) (x : Reactor) (e : Entry) : Act :=
  { reactor := r, kind := if e.late then .late else .ordinary, q := e.q, from_ := [e.owner.sender], tarr := e.tarr, sigMode := x.sigMode,
    entry := if e.late then x.lateEntry else if e.q.host? then e.q.host else x.entry }

/-- Completes an activation that no thread set ran as cancelled (R133): tokens, horizon, entries freed. (log 77, DEDUCED) -/
def cancelPending (r : Nat) (p : Pending) (s : State) : State :=
  let s := sendTokens r p.act.q.tag (BitVec.ofNat 32 ((s.re r).core * 4)) none s
  let s := p.slots.foldl (fun s i => freeEntry r i s) s
  let s := s.modRe r fun x =>
    { x with pend := none, st := if x.entries.any (fun e => e.st == .waiting) || !x.requeued.isEmpty then .hold else .idle,
             horizon := if p.act.kind == .late then x.horizon else raiseHorizon x.horizon p.act.q.tag }
  let now := s.ns (bhOfReac r)
  let a := { p.act with tdisp := now }
  delaySplit (s.re r).core a now (trace (bhOfReac r) 0 (a.record ((s.re r).core * 4) 1 now).bytes s)

/-- Starts the translation of a formed activation (R351); its age counts anew (R355). -/
def startXlate (r : Nat) (p : Pending) (s : State) : State :=
  let c := cluOfReac r
  let p := { p with order := (s.cl c).nextOrder, age := 0 }
  let s := s.modCl c fun k => { k with nextOrder := k.nextOrder + 1 }
  (s.modRe r fun x => { x with pend := some p, st := .xlate }).emit (.walk (.dispatch r) false)

/-- A breakpoint register of the cluster that names an entry address (R401). (log 77, DEDUCED) -/
def brkHit (s : State) (r : Nat) (a : W64) : Bool :=
  (s.cl (cluOfReac r)).brk.any fun e => e.2.getLsbD 0 && e.2.extractLsb' 2 62 == a.extractLsb' 2 62

/-- The record of a stop, kind 1, or of a resume, kind 2: Table 21-4 names a core in a resume after a move alone. -/
def stopRec (s : State) (r kind reason : Nat) (addr : W64) : Rec :=
  let x := s.re r
  let h := x.horizon.getD (0, 0)
  { kind := kind, tagt := h.1.toNat, tagm := h.2.toNat, route := ridOf r, entry := addr.toNat,
    tdisp := s.ns (bhOfReac r), outcome := reason }

/-- Holds a reactor in STOP (R401): reason 0 breakpoint, 1 request, 2 watch, 3 move; 4 a seal (Table 18-3), which R401 gives
no record. -/
def enterStop (r reason : Nat) (addr : W64) (s : State) : State :=
  (fun q => if reason = 4 then q else trace (bhOfReac r) 1 (stopRec s r 1 reason addr).bytes q)
    (s.modRe r fun x => { x with st := .stop, stopWant := false, stopWhy := reason, brkAddr := addr })

/-- A queue entry that reads back as STRUCTURAL is discarded, with a record, and the reactor's next activation
completes as cancelled (R342). -/
def entryPoisoned (s : State) (x : Reactor) (e : Entry) : Bool := (readLine s (slotPa x e.slot) 32).2.1 == 4
/-- The "queue poison" record: PEER is the sender as it is read. -/
def poisonRec (r : Nat) (e : Entry) (s : State) : State :=
  let pa := slotPa (s.re r) e.slot
  errorTo r { addr := BitVec.ofNat 64 pa, tagt := e.q.tagt, tagm := e.q.tagm, cause := 11, phys := true
              peer := BitVec.ofNat 32 (leNat ((readLine s pa 16).1.drop 12) % 2 ^ 27) } s

/-- One evaluation of a reactor's queue (R350 to R352): true when it may be evaluated again at once. (log 82, DESIGN CHOICE) -/
def evalStep (r : Nat) (s : State) : State × Bool :=
  let x := s.re r
  if (x.st != .idle && x.st != .hold) || x.disarming || x.stranded || !x.started then (s, false)
  else if (s.co x.core).isSealed then (enterStop r 4 0 s, false)
  else if x.stopWant then (enterStop r x.stopWhy 0 s, false)
  else match headOf x with
    | none => (s.modRe r fun x => { x with st := .idle }, false)
    | some h =>
      let s := s.modRe r fun x => { x with st := .hold }
      let isLate := h.key.1
      if !isLate && !safe s r h.key.2.1 then (s, false)
      else match h with
        | .pend p =>
          let can := p.cancelled || x.poisonNext
          let take (s : State) := s.modRe r fun x =>
            { x with requeued := x.requeued.erase p, poisonNext := false, brkPass := false }
          if can then (cancelPending r p (take s), true)
          else if brkHit s r p.act.entry && !x.brkPass then (enterStop r 0 p.act.entry s, false)
          else (startXlate r p (take s), false)
        | .entry e =>
          let s := countFix (slotPa x e.slot) (readLine s (slotPa x e.slot) 32).2.2 s
          if entryPoisoned s x e then
            ((freeEntry r e.slot (poisonRec r e s)).modRe r fun x => { x with poisonNext := true }, true)
          else
            let a := newAct r x e
            if e.late then
              let p : Pending := { act := a, slots := [e.slot], cancelled := x.lateEntry = 0 || x.poisonNext }
              let fire (s : State) := s.modRe r fun x => { x with
                poisonNext := false
                brkPass := false
                entries := x.entries.map fun y => if y.slot = e.slot then { y with st := .fired } else y }
              if p.cancelled then (cancelPending r p (fire s), true)
              else if brkHit s r a.entry && !x.brkPass then (enterStop r 0 a.entry s, false)
              else (startXlate r p (fire s), false)
            else
              let n := if e.q.port < 16 then (x.joins[e.q.port]?.getD (0, 0)) else (0, 0)
              if n.1 = 0 then
                let can := e.q.cancel || x.poisonNext
                let p : Pending := { act := a, slots := [e.slot], cancelled := can }
                let fire (s : State) := s.modRe r fun x => { x with
                  poisonNext := false
                  brkPass := false
                  entries := x.entries.map fun y => if y.slot = e.slot then { y with st := .fired } else y }
                if can then (cancelPending r p (fire s), true)
                else if brkHit s r a.entry && !x.brkPass then (enterStop r 0 a.entry s, false)
                else (startXlate r p (fire s), false)
              else if 1 < n.2 then
                (s.modRe r fun x => { x with
                  joins := x.joins.set! e.q.port (n.1, n.2 - 1)
                  entries := x.entries.map fun y => if y.slot = e.slot then { y with st := .counted } else y }, true)
              else
                -- the join fires (R132): its counted arrivals with this one, the greatest tag last; of arrivals that share it,
                -- the last in index order gives the payload (log 82, DESIGN CHOICE)
                let mine := (x.entries.filter fun y => y.st == .counted && y.q.port == e.q.port) ++ [e]
                let top := mine.foldl (fun m y => if headLt (.entry m) (.entry y) then y else m) e
                let can := mine.any (fun y => y.q.cancel) || x.poisonNext
                let p : Pending :=
                 { act := { newAct r x top with joinq := mine.map (·.q), from_ := mine.map (·.owner.sender), tarr := e.tarr },
                   slots := mine.map (·.slot), cancelled := can }
                let fire (s : State) := s.modRe r fun x => { x with
                  joins := x.joins.set! e.q.port (n.1, n.1)
                  poisonNext := false
                  brkPass := false
                  entries := x.entries.map fun y => if mine.any (fun z => z.slot == y.slot) then { y with st := .fired }
                    else y }
                if can then (cancelPending r p (fire s), true)
                else if brkHit s r p.act.entry && !x.brkPass then (enterStop r 0 p.act.entry s, false)
                else (startXlate r p (fire s), false)

/-- Evaluates a reactor until nothing more happens at once. -/
def evalReactor : Nat → Nat → State → State
  | 0, _, s => s
  | f + 1, r, s => match evalStep r s with
    | (s, true) => evalReactor f r s
    | (s, false) => s

/-- Evaluates every reactor of a device once. -/
def evalRound (d : Nat) (s : State) : State :=
  (s.reac.filter fun e => devOfBh (bhOfReac e.1) == d).foldl
    (fun s e => evalReactor ((s.re e.1).entries.length + (s.re e.1).requeued.length + 1) e.1 s) s

/-- What waits at the reactors of the pod. -/
def waitingWork (s : State) : Nat :=
  (s.reac.map fun e => (e.2.entries.filter fun x => x.st == .waiting).length + e.2.requeued.length).foldl (· + ·) 0

/-- Rounds of evaluation, as long as one takes up something that waited: the end of an activation that a round cancels is a
moment of R350 for the reactors that it held back. -/
def evalRounds : Nat → Nat → State → State
  | 0, _, s => s
  | f + 1, d, s =>
    let s' := evalRound d s
    if waitingWork s' < waitingWork s then evalRounds f d s' else s'

/-- Evaluates the reactors of a device (R350): at an arrival, at the end of an activation, at a change of T, at a falling
edge of STOP. -/
def evalDev (d : Nat) (s : State) : State := evalRounds (waitingWork s + 1) d s

/-! ### The ends of an activation -/

/-- Withdraws an arrival at barrier i whose episode has not released (R359). -/
def withdraw (cl : Nat) (b : Nat × Nat) (s : State) : State :=
  s.modCl cl fun c =>
    let r := Map.get {} c.bars b.1
    if r.epi.toNat = b.2 then { c with bars := Map.set c.bars b.1 { r with arr := r.arr - 1 } } else c

/-- Withdraws the arrivals of a thread set's activation: the one it waits in, those it has been moved past, and those that a move has
left in another cluster. -/
def dropBar (u : Nat) (s : State) : State :=
  let t := s.th u
  ((t.bar.toList ++ t.left).map (fun b => (cluOf u, b)) ++ t.away).foldl (fun s b => withdraw b.1 b.2 s)
    (if t.bar.isNone && t.left.isEmpty && t.away.isEmpty then s else s.modTh u fun t => { t with bar := none, left := [], away := [] })

/-- The engine commands of a reactor in flight. -/
def engines (s : State) (r : Nat) : Bool :=
  s.flight.any fun e => match e.2 with
    | .engine _ q .. => q == r
    | _ => false

/-- Those that hold its reactor in SETTLE. -/
def settling (s : State) (r : Nat) : Bool :=
  s.flight.any fun e => match e.2 with
    | .engine _ q _ _ _ _ _ c _ => q == r && !c.beside
    | _ => false

/-- The commands of a thread set's activation no longer hold its reactor. -/
def setBeside (u : Nat) (s : State) : State :=
  { s with flight := s.flight.map fun (e : Nat × Flight) => match e.2 with
    | .engine ts q m n c g t d p =>
      if ts = u ∧ g = (s.th u).gen then (e.1, .engine ts q m n c g t { d with beside := true } p) else e
    | _ => e }

/-- The trace record of a trap that has ended: by a thaw's ACTION, or 3 by a cancellation (Table 21-4). -/
def trapRec (s : State) (u outcome : Nat) : Rec :=
  let t := s.th u
  let a := s.act u
  { kind := 4, tagt := a.q.tagt.toNat, tagm := a.q.tagm.toNat, coord := u, entry := t.tepc.toNat, tarr := t.tcause.toNat,
    sendt := t.tval.toNat % 2 ^ 32, tdisp := t.tfroze, tdone := s.ns (bhOf u), outcome := outcome }

/-- The thread set becomes free and the activation's record is written; its pins and tables are released (R217, R398). An arrival
that its program was moved past stands at done (R359).
`outcome` is 0 done, 1 cancelled, 2 aborted; the commands of a cancelled one do not hold its reactor (Table 18-4). -/
def endRun (u outcome : Nat) (s : State) : State :=
  let a := s.act u
  let now := s.ns (bhOf u)
  let s := dropLate u (releasePins a (if outcome = 0 then s else dropBar u s))
  let s := s.modTh u fun t => { t with mode := .free, bar := none, left := [], away := [], act := none, hist := 0, blk := none
                                       repst := 0, latch := none }
  let s := trace (bhOf u) 0 (a.record u outcome now).bytes s
  let s := delaySplit (coreOf u) a now s
  let s := if outcome = 1 then setBeside u s else s
  if a.kind == .ordinary || a.kind == .late then
    s.modRe a.reactor fun x =>
      { x with runTs := none, st := if x.st == .move then .move else if settling s a.reactor then .settle else .hold }
  else s

/-- The address of a leaf's frame (Table 04-2). -/
def leafAddr (e : W128) : Nat := (e.extractLsb' 9 43).toNat * 512

/-- Withdraws the pin messages of some walks; one that was admitted is released (R67, R353). -/
def State.dropPins (f : WalkFor → Bool) (s : State) : State :=
  let s := s.flight.foldl (fun s e => match e.2 with
    | .pin w leaf _ _ _ (some 0) => if f w && !isSp (leafAddr leaf) then pinSub (leafAddr leaf) s else s
    | _ => s) s
  { s with flight := s.flight.filter fun e => match e.2 with
    | .pin w .. => !f w
    | _ => true }

/-- Withdraws the translation of a formed activation: its pins, walk and pin messages. -/
def dropXlate (r : Nat) (a : Act) (s : State) : State :=
  State.dropPins (fun w => w == .dispatch r) { releasePins a s with
    flight := (releasePins a s).flight.filter fun e => match e.2 with
      | .walk (.dispatch q) _ => q != r
      | _ => true }

/-- Withdraws the loads of a thread set and the commands of its activation as R293 gives: what is in flight is discarded. -/
def dropWork (u : Nat) (cmds : Bool) (s : State) : State :=
  let s := (s.flight.filter fun e => match e.2 with
    | .fill ts .. => ts == u
    | _ => false).foldl (fun s e => match e.2 with
      | .fill _ _ _ f => let pa := (f.extractLsb' 16 36).toNat * 65536
                         if isSp pa then s else pinSub pa s
      | _ => s) s
  State.dropPins (fun w => match w with
    | .lateMiss ts .. => ts == u
    | .code ts _ => ts == u
    | _ => false) { s with flight := s.flight.filter fun e => match e.2 with
    | .load ts .. => ts != u
    | .engine ts _ _ _ _ g .. => !(cmds && ts == u && g == (s.th u).gen)
    | .walk (.lateMiss ts ..) _ => ts != u
    | .walk (.code ts _) _ => ts != u
    | .fill ts .. => ts != u
    | .turn ts .. => ts != u
    | _ => true }

/-- The "no buddy" record of a thread set whose trap no buddy serves (R367). -/
def noBuddyLog (ts : Nat) (s : State) : State :=
  let t := s.th ts
  logTo (bhOf ts)
    { addr := t.tepc, tagt := (s.act ts).q.tagt, tagm := (s.act ts).q.tagm, peer := BitVec.ofNat 32 ts, cause := 18,
      aux := t.tcause.setWidth 32 } s

/-- Places the trap entry of a thread set again, at its place in the order of freezing (R368). -/
def requeueTrap (v order : Nat) (backup : Bool) (s : State) : State :=
  s.modCl (cluOf v) fun c => { c with traps := c.traps ++ [{ ts := v, backup := backup, order := order }] }

/-- Ends an activation as cancelled (R133): its handler stops; held stores and events are discarded; tokens are sent on
every connection, unless it is a trap or page-request activation. A cancelled trap activation has its trap entry
placed again, once; the second time the trapping activation is cancelled too, as without a buddy (R368). -/
def cancelRun : Nat → Nat → State → State
  | 0, _, s => s
  | f + 1, u, s =>
    let a := s.act u
    let s := dropWork u false (dropTrap u s)
    let s := if (s.th u).mode = .frozen then trace (bhOf u) 4 (trapRec s u 3).bytes s else s
    let s := if a.kind == .ordinary || a.kind == .late then
        sendTokens a.reactor a.q.tag (BitVec.ofNat 32 u) (some u) s else s
    let s := endRun u 1 s
    if a.kind == .trap then
      let v := a.serves
      if (s.th v).mode != .frozen then s
      else if (s.th v).retried then cancelRun f v (noBuddyLog v s)
      else requeueTrap v a.serveOrder false (s.modTh v fun t => { t with retried := true })
    else s

/-- Cancels the activation of a thread set, and those that its cancellation cancels. -/
def cancelThread (u : Nat) (s : State) : State := cancelRun (s.thr.length + 1) u s

/-- Cancels the activation of a thread set and evaluates the queues. -/
def cancelAct (u : Nat) (s : State) : State := evalDev (devOf u) (cancelThread u s)

/-- A STRUCTURAL failure cancels the activation that issued a command or Weevil operation, unless its done has retired (R56, R217). -/
def cancelIssuer (u gen : Nat) (s : State) : State :=
  if (s.th u).gen = gen ∧ (s.th u).act.isSome then cancelAct u s else s

/-- Aborts a restartable activation (R142, R293, R101): held stores and events are discarded, its commands stop, and it
is requeued at its tag. -/
def abortAct (u : Nat) (late : Option (Nat × Nat × BitVec 2)) (sig : Bool) (block : W64) (s : State) : State :=
  let a := s.act u
  let s := endRun u 2 (dropWork u true (dropTrap u s))
  let a' : Act :=
   { reactor := a.reactor, kind := a.kind, q := a.q, joinq := a.joinq, from_ := a.from_, entry := a.entry, tarr := a.tarr,
     attempt := a.attempt + 1, sigRuns := if sig then a.sigRuns + 1 else a.sigRuns,
     sigBlock := if sig ∧ a.sigRuns = 0 then block else a.sigBlock, sigMode := a.sigMode }
  if a.kind = .trap then s.modCl (cluOf a.serves) fun c =>
    { c with traps := c.traps ++ [{ ts := a.serves, order := a.serveOrder, latePage := late, again := some a' }] }
  else
    let c := cluOfReac a.reactor
    let p : Pending := { act := a', latePage := late, order := (s.cl c).nextOrder }
    (s.modCl c fun c => { c with nextOrder := c.nextOrder + 1 }).modRe a.reactor fun x =>
      { x with st := if a.kind = .page ∨ x.st = .move then x.st else .hold,
               requeued := if x.disarming then x.requeued else x.requeued ++ [p] }

/-- Returns a formed activation to the index and releases its pins (R353). -/
def returnPending (r : Nat) (s : State) : State :=
  match (s.re r).pend with
  | none => s
  | some p =>
    let s := dropXlate r p.act s
    s.modRe r fun x => { x with pend := none, st := .hold, requeued := x.requeued ++ [{ p with
      act := { p.act with extents := [], frags := [], pins := [] }, pinsOut := 0, age := 0 }] }

/-! ### Arrival (R361) -/

/-- Discards an entry that cannot be queued, with a record to its sender's reactor (R138, R375, R389, R394); one that no reactor
sent has its record in the log of the bulkhead that discards it (R381). (log 76, DEDUCED) -/
def discardTo (sender : Option Nat) (cause : Nat) (peer : Nat) (q : QEntry) (s : State) : State :=
  let e : ErrRec := { tagt := q.tagt, tagm := q.tagm, peer := BitVec.ofNat 32 peer, cause := BitVec.ofNat 8 cause }
  match sender with
  | none => logTo (bhOf peer) e s
  | some r => errorTo r e s

/-- Whether an entry is a start event's. -/
def Owner.starts : Owner → Bool
  | .start _ => true
  | _ => false

/-- Gives the unit of an entry that is not queued at reactor r back: to the connection that used it, or to the pool it came
from; a unit of a dead member returns to the target (R344). -/
def giveBack (r : Nat) (o : Owner) (s : State) : State :=
  let pool (s : State) : State := s.modRe r fun x => { x with spares := x.spares + 1 }
  match o with
  | .conn q i => if senderDead s r q then pool s else s.emit (.credit q i)
  | .spareOf .. | .spare => pool s
  | .ingress => s.modRe r fun x => { x with ingressFree := x.ingressFree + 1 }
  | .start _ | .unheld => s

/-- Puts an entry into the ring of a reactor and the index. -/
def indexEntry (r : Nat) (q : QEntry) (o : Owner) (isLate : Bool) (s : State) : State :=
  let x := s.re r
  let slot := freeSlot x
  let s := s.put (slotPa x slot) q.bytes
  let at? := (s.cl (cluOfReac r)).nextOrder
  -- a page request is ready at once: R128 does not judge it (R77)
  let s := if q.port = 0x32 then s.modCl (cluOfReac r) fun c => { c with nextOrder := c.nextOrder + 1 } else s
  s.modRe r fun x => { x with
    entries := x.entries ++ [{ slot := slot, q := q, owner := o, order := x.nextOrder, tarr := s.ns (bhOfReac r),
                               late := isLate, ready := at? }]
    nextOrder := x.nextOrder + 1 }

/-- An entry reaches the sequencer of a reactor that exists there: it is judged against the horizon and indexed; a
straggler aborts a later restartable activation (R142, R361), and an earlier entry sends back a formed one (R353). -/
def receive (r : Nat) (q : QEntry) (o : Owner) (s : State) : State :=
  let x := s.re r
  let p := q.port
  if !(p < 16 || p = 0x30 || p = 0x31 || p = 0x32) then
    giveBack r o (errorTo r { addr := q.route.setWidth 64, tagt := q.tagt, tagm := q.tagm, peer := q.sender, cause := 10 } s)
  else if x.disarming then giveBack r o (discardTo o.sender 14 (x.core * 4) q s)
  else if x.stranded then giveBack r o (discardTo o.sender 13 (x.core * 4) q s)
  else
    let isLate := match x.horizon with
      | none => false
      | some h => tagLe q.tag h && !o.starts && p != 0x32
    let s := indexEntry r q o isLate s
    let s := if isLate then
        let h := x.horizon.getD (0, 0)
        errorTo r { addr := h.1, aux := h.2, tagt := q.tagt, tagm := q.tagm, peer := q.sender, cause := 9 }
          (bumpCtl r 0x36 s)
      else s
    let s := match x.st, x.runTs with
      | .run, some u =>
        if isLate && (s.act u).restartable && tagLt q.tag (s.act u).q.tag &&
            (match (s.th u).mode with | .drain _ | .drained _ => false | _ => true)
        then abortAct u none false 0 s else s
      | .xlate, _ | .pwait, _ | .ready, _ =>
        (match x.pend with
         | some pd => if isLate || tagLt q.tag pd.act.q.tag then returnPending r s else s
         | none => s)
      | _, _ => s
    evalDev (devOfBh (bhOfReac r)) s

/-- The connection that an entry came on, when it still stands. -/
def State.connOf (s : State) (o : Owner) : Option Conn :=
  match o with
  | .conn q i | .spareOf q i => (s.re q).conns[i]?
  | _ => none

/-- An entry reaches a core for a reactor key: it is discarded when its target was released or went with a reset (R138, R394);
forwarded when the reactor has moved (R375), discarded when it is gone (R375, R394), else received. -/
def arrive : Nat → Nat → QEntry → Owner → State → State
  | 0, _, _, _, s => s
  | f + 1, r, q0, o, s =>
    let c := s.connOf o
    if (c.map (·.lost)).getD false then giveBack r o (discardTo o.sender 13 (bhOfReac r * 4096) q0 s)
    else if (c.map (·.dead)).getD false then giveBack r o (discardTo o.sender 14 ((c.map (·.tcore)).getD 0 * 4) q0 s)
    else if s.hasRe r then receive r q0 o s
    else
      match (s.cl (cluOfReac r)).fwd.find? fun e => e.2.orid = ridOf r with
      | some (_, w) =>
        let r' := reacKey (cluOf w.ncoord) w.nrid
        arrive f r' { q0 with route := q0.route.extractLsb' 16 8 ++ BitVec.ofNat 16 (ridOf r') } o s
      | none =>
        if (s.bu (bhOfReac r)).reset || (s.partOf? (bhOfReac r)).isNone then
          giveBack r o (discardTo o.sender 13 (bhOfReac r * 4096) q0 s)
        else
          match c with
          | some c => discardTo o.sender 12 (c.tcore * 4) q0 s
          | none => discardTo o.sender 12 (cluOfReac r * 1024) q0 s

end Sys2Proof.Machine
end

