-- ==== Sys2Proof/Machine/Clock.lean ====
section
/-! DEFINITION. Clock.lean: a Cricket channel's measured error and dispatch stop (R345 to R347), and the advance of local time
(R350). -/

namespace Sys2Proof.Machine

/-- The bulkheads of a device that a partition holds. -/
def bhsOf (s : State) (dev part : Nat) : List Nat :=
  ((List.range 24).map (dev * 32 + ·)).filter fun b => s.partOf? b == some part
def State.chanOf (s : State) (dev part : Nat) : Channel := Map.get {} (s.de dev).chan part
def State.modChan (s : State) (dev part : Nat) (f : Channel → Channel) : State :=
  s.modDe dev fun d => { d with chan := Map.set d.chan part (f (s.chanOf dev part)) }

/-- The device that a partition names as its time root, as a device's bulkheads give it (CKSTAT.ROOT). -/
def rootOf (s : State) (dev part : Nat) : Nat := ((bhsOf s dev part).head?.map fun b => (s.bu b).cksRoot.toNat).getD 0

/-- MEAS of a channel that reads as wide open. -/
def measMax : Nat := 2 ^ 32 - 1

/-- The plane with the smallest uncertainty, the lowest such. (log 38, DEDUCED) -/
def bestPlane (c : Channel) : Option (Int × Nat) :=
  c.planes.foldl (fun m e => match m with
    | none => some e.2
    | some b => if e.2.2 < b.2 then some e.2 else m) none

/-- The measured error: residual offset plus uncertainty, plus 10 ns for each millisecond since the last exchange; at the
root 0 while its reference is locked (R345). (log 38, DEDUCED) -/
def measOf (root : Bool) (c : Channel) : Nat :=
  if root then (if c.locked then 0 else measMax)
  else match bestPlane c with
    | none => measMax
    | some (o, u) => min measMax (o.natAbs + u + 10 * (c.since / 1000000))

/-- INSYNC: MEAS ≤ E × tick, and MEAS is not the value that stands for no measure (Table 18-2, R345). (log 38, DEDUCED) -/
def insyncOf (s : State) (bh meas : Nat) : Bool :=
  meas != measMax && meas ≤ s.boundE bh * 2 ^ ((s.bu bh).pcfg.extractLsb' 0 5).toNat

/-- Both anchors of a device are in reset: no copy of its Cricket runs (R395). -/
def cricketLost (s : State) (dev : Nat) : Bool := (s.bu (dev * 32)).reset && (s.bu (dev * 32 + 23)).reset

/-- Judges a partition's channel on a device again: MEAS, INSYNC and STOP, the records of STOP's edges, and the queues at
a falling edge, which an exchange alone brings, or the root's reference (R346, R347). -/
def judgeClock (dev part : Nat) (exchange : Bool) (s : State) : State :=
  let bs := bhsOf s dev part
  let c := s.chanOf dev part
  let run := bs.any s.running
  let meas := measOf (dev == rootOf s dev part) c
  let ins := match bs.head? with
    | none => false
    | some b => insyncOf s b meas
  let stop := run && (!ins || (c.stop && !exchange))
  let s := s.modChan dev part fun c => { c with meas := BitVec.ofNat 32 meas, insync := ins, stop := stop }
  let note (cause : Nat) (s : State) : State := bs.foldl (fun s b =>
    logTo b { peer := BitVec.ofNat 32 (b * 4096), cause := BitVec.ofNat 8 cause, aux := BitVec.ofNat 32 meas } s) s
  if stop && !c.stop then
    note 16 (s.modChan dev part fun c => { c with nstop := if c.nstop = 0xFFFFF then c.nstop else c.nstop + 1 })
  else if c.stop && !stop && run then evalDev dev (note 17 s)
  else s

/-- The slew of a channel over d ns of its own rate: towards the root by what the plane of the smallest uncertainty still shows, at
the rate that its last exchange set, at most 200 parts per million; the root's channel and one with no exchange keep their rate
(R345). -/
def slewOf (root : Bool) (c : Channel) (d : Nat) : Int :=
  if root then 0
  else match bestPlane c with
    | none => 0
    | some (o, _) => let ppm := min c.rate 200
                     let most : Int := ((c.own + d) * ppm / 1000000 - c.own * ppm / 1000000 : Nat)
                     max (-most) (min most o)

/-- A channel d ns further by its own rate: its time base moves by d and the slew, which every plane's residual offset loses. -/
def Channel.advance (root : Bool) (d : Nat) (c : Channel) : Channel :=
  let a := slewOf root c d
  { c with ns := c.ns + ((d : Int) + a).toNat, own := c.own + d, since := c.since + d
           planes := c.planes.map fun (e : Nat × Int × Nat) => (e.1, (e.2.1 - a, e.2.2)) }

/-- LOCAL_TIME_ADVANCE: the time base of a partition's channel on a device moves on, never back, to what it would read at its own
rate, but for the slew; the queues are evaluated again (R345, R350). (log 13, DESIGN CHOICE) -/
def execLocalTimeAdvance (dev part ns : Nat) (s : State) : Out :=
  .next (let c := s.chanOf dev part
         if ns ≤ c.ns ∨ cricketLost s dev then s
         else evalDev dev (judgeClock dev part false
           (s.modChan dev part (Channel.advance (dev == rootOf s dev part) (ns - c.ns)))))

/-- REFERENCE_LOCK_LOSS and REFERENCE_LOCK_RETURN: the board reference of a partition's root (R345). It brings STOP of the root's own
channel back alone; another's waits for an exchange (R347). -/
def setLock (dev part : Nat) (b : Bool) (s : State) : State :=
  judgeClock dev part (dev == rootOf s dev part) (s.modChan dev part fun c => { c with locked := b })
def execReferenceLockLoss (dev part : Nat) (s : State) : Out := .next (setLock dev part false s)
def execReferenceLockReturn (dev part : Nat) (s : State) : Out := .next (setLock dev part true s)

end Sys2Proof.Machine
end

