-- ==== Sys2Proof/Decode.lean ====
section
/-! DEFINITION. Decode.lean: from words to instructions by the decode checks of R164, and back (chapter 08). -/

namespace Sys2Proof

/-- The base-form instruction an opcode names (R162, R163), `none` where the opcode has no base form. -/
def baseInstr (op : BitVec 8) (g : Guard) (hi : BitVec 18) (lit : Option (BitVec 64)) : Option Instr :=
  match op.toNat with
  | 0x00 => some (.nop g)
  | 0x01 => some (.br g hi)
  | 0x02 => some (.brx g (hi.extractLsb' 6 6))
  | 0x03 => some (.call g hi)
  | 0x04 => some (.callx g (BU.ofHi hi))
  | 0x05 => some (.ret g (hi.extractLsb' 6 6))
  | 0x07 => some (.done g)
  | 0x10 => some (.iadd g (B3.ofHi hi lit))
  | 0x11 => some (.isub g (B3.ofHi hi lit))
  | 0x12 => some (.imul g (B3.ofHi hi lit))
  | 0x13 => some (.imulh g (B3.ofHi hi lit))
  | 0x14 => some (.imulhu g (B3.ofHi hi lit))
  | 0x15 => some (.idiv g (B3.ofHi hi lit))
  | 0x16 => some (.idivu g (B3.ofHi hi lit))
  | 0x17 => some (.irem g (B3.ofHi hi lit))
  | 0x18 => some (.iremu g (B3.ofHi hi lit))
  | 0x19 => some (.imin g (B3.ofHi hi lit))
  | 0x1A => some (.imax g (B3.ofHi hi lit))
  | 0x1B => some (.iminu g (B3.ofHi hi lit))
  | 0x1C => some (.imaxu g (B3.ofHi hi lit))
  | 0x1D => some (.iabs g (BU.ofHi hi))
  | 0x1E => some (.ineg g (BU.ofHi hi))
  | 0x1F => some (.and g (B3.ofHi hi lit))
  | 0x20 => some (.or g (B3.ofHi hi lit))
  | 0x21 => some (.xor g (B3.ofHi hi lit))
  | 0x22 => some (.andn g (B3.ofHi hi lit))
  | 0x23 => some (.orn g (B3.ofHi hi lit))
  | 0x24 => some (.shl g (B3.ofHi hi lit))
  | 0x25 => some (.shr g (B3.ofHi hi lit))
  | 0x26 => some (.sar g (B3.ofHi hi lit))
  | 0x27 => some (.rol g (B3.ofHi hi lit))
  | 0x28 => some (.clz g (BU.ofHi hi))
  | 0x29 => some (.ctz g (BU.ofHi hi))
  | 0x2A => some (.popc g (BU.ofHi hi))
  | 0x2F => some (.mov g (BU.ofHi hi))
  | 0x30 => some (.li g (BI.ofHi hi))
  | 0x31 => some (.lea g (B3.ofHi hi lit))
  | 0x33 => some (.icmpEq g (BC.ofHi hi lit))
  | 0x34 => some (.icmpNe g (BC.ofHi hi lit))
  | 0x35 => some (.icmpLt g (BC.ofHi hi lit))
  | 0x36 => some (.icmpLe g (BC.ofHi hi lit))
  | 0x37 => some (.icmpLtu g (BC.ofHi hi lit))
  | 0x38 => some (.icmpLeu g (BC.ofHi hi lit))
  | 0x3E => some (.iaddi g (BI.ofHi hi))
  | 0x70 => some (.vadd g (B3.ofHi hi lit))
  | 0x71 => some (.vsub g (B3.ofHi hi lit))
  | 0x72 => some (.vmul g (B3.ofHi hi lit))
  | 0x73 => some (.vmulh g (B3.ofHi hi lit))
  | 0x74 => some (.vmad g (B3.ofHi hi lit))
  | 0x75 => some (.vmin g (B3.ofHi hi lit))
  | 0x76 => some (.vmax g (B3.ofHi hi lit))
  | 0x77 => some (.vabs g (BU.ofHi hi))
  | 0x78 => some (.vneg g (BU.ofHi hi))
  | 0x79 => some (.vand g (B3.ofHi hi lit))
  | 0x7A => some (.vor g (B3.ofHi hi lit))
  | 0x7B => some (.vxor g (B3.ofHi hi lit))
  | 0x7C => some (.vshl g (B3.ofHi hi lit))
  | 0x7D => some (.vshr g (B3.ofHi hi lit))
  | 0x7E => some (.vsar g (B3.ofHi hi lit))
  | 0x7F => some (.vsra g (B3.ofHi hi lit))
  | 0x86 => some (.vmov g (BU.ofHi hi))
  | 0x89 => some (.vperm g (B3.ofHi hi lit))
  | 0x90 => some (.vfadd g (B3.ofHi hi lit))
  | 0x91 => some (.vfsub g (B3.ofHi hi lit))
  | 0x92 => some (.vfmul g (B3.ofHi hi lit))
  | 0x93 => some (.vfma g (B3.ofHi hi lit))
  | 0x94 => some (.vfmin g (B3.ofHi hi lit))
  | 0x95 => some (.vfmax g (B3.ofHi hi lit))
  | 0x96 => some (.vfabs g (BU.ofHi hi))
  | 0x97 => some (.vfneg g (BU.ofHi hi))
  | 0x9A => some (.vfrcp g (BU.ofHi hi))
  | 0x9B => some (.vfrsq g (BU.ofHi hi))
  | 0x9C => some (.vfexp2 g (BU.ofHi hi))
  | 0x9D => some (.vflog2 g (BU.ofHi hi))
  | _ => none

/-- The extended-form instruction an opcode names (R162, R163), `none` where the opcode has no extended form. -/
def extInstr (op : BitVec 8) (g : Guard) (v : BitVec 2) (d a b : Slot) (w2 : BitVec 32) (lit : Option (BitVec 64)) : Option Instr :=
  match op.toNat with
  | 0x00 => some (.nopExt g (XA.ofWords v d a b w2 lit))
  | 0x02 => some (.brxExt g (XA.ofWords v d a b w2 lit))
  | 0x04 => some (.callxExt g (XA.ofWords v d a b w2 lit))
  | 0x05 => some (.retExt g (XA.ofWords v d a b w2 lit))
  | 0x06 => some (.rep g (XA.ofWords v d a b w2 lit))
  | 0x07 => some (.doneExt g (XA.ofWords v d a b w2 lit))
  | 0x10 => some (.iaddExt g (XA.ofWords v d a b w2 lit))
  | 0x11 => some (.isubExt g (XA.ofWords v d a b w2 lit))
  | 0x12 => some (.imulExt g (XA.ofWords v d a b w2 lit))
  | 0x13 => some (.imulhExt g (XA.ofWords v d a b w2 lit))
  | 0x14 => some (.imulhuExt g (XA.ofWords v d a b w2 lit))
  | 0x15 => some (.idivExt g (XA.ofWords v d a b w2 lit))
  | 0x16 => some (.idivuExt g (XA.ofWords v d a b w2 lit))
  | 0x17 => some (.iremExt g (XA.ofWords v d a b w2 lit))
  | 0x18 => some (.iremuExt g (XA.ofWords v d a b w2 lit))
  | 0x19 => some (.iminExt g (XA.ofWords v d a b w2 lit))
  | 0x1A => some (.imaxExt g (XA.ofWords v d a b w2 lit))
  | 0x1B => some (.iminuExt g (XA.ofWords v d a b w2 lit))
  | 0x1C => some (.imaxuExt g (XA.ofWords v d a b w2 lit))
  | 0x1D => some (.iabsExt g (XA.ofWords v d a b w2 lit))
  | 0x1E => some (.inegExt g (XA.ofWords v d a b w2 lit))
  | 0x1F => some (.andExt g (XA.ofWords v d a b w2 lit))
  | 0x20 => some (.orExt g (XA.ofWords v d a b w2 lit))
  | 0x21 => some (.xorExt g (XA.ofWords v d a b w2 lit))
  | 0x22 => some (.andnExt g (XA.ofWords v d a b w2 lit))
  | 0x23 => some (.ornExt g (XA.ofWords v d a b w2 lit))
  | 0x24 => some (.shlExt g (XA.ofWords v d a b w2 lit))
  | 0x25 => some (.shrExt g (XA.ofWords v d a b w2 lit))
  | 0x26 => some (.sarExt g (XA.ofWords v d a b w2 lit))
  | 0x27 => some (.rolExt g (XA.ofWords v d a b w2 lit))
  | 0x28 => some (.clzExt g (XA.ofWords v d a b w2 lit))
  | 0x29 => some (.ctzExt g (XA.ofWords v d a b w2 lit))
  | 0x2A => some (.popcExt g (XA.ofWords v d a b w2 lit))
  | 0x2B => some (.sext g (XA.ofWords v d a b w2 lit))
  | 0x2C => some (.zext g (XA.ofWords v d a b w2 lit))
  | 0x2D => some (.bfx g (XA.ofWords v d a b w2 lit))
  | 0x2E => some (.bfi g (XA.ofWords v d a b w2 lit))
  | 0x2F => some (.movExt g (XA.ofWords v d a b w2 lit))
  | 0x30 => some (.liExt g (XA.ofWords v d a b w2 lit))
  | 0x31 => some (.leaExt g (XA.ofWords v d a b w2 lit))
  | 0x32 => some (.sel g (XA.ofWords v d a b w2 lit))
  | 0x33 => some (.icmpEqExt g (XA.ofWords v d a b w2 lit))
  | 0x34 => some (.icmpNeExt g (XA.ofWords v d a b w2 lit))
  | 0x35 => some (.icmpLtExt g (XA.ofWords v d a b w2 lit))
  | 0x36 => some (.icmpLeExt g (XA.ofWords v d a b w2 lit))
  | 0x37 => some (.icmpLtuExt g (XA.ofWords v d a b w2 lit))
  | 0x38 => some (.icmpLeuExt g (XA.ofWords v d a b w2 lit))
  | 0x39 => some (.gop g (XA.ofWords v d a b w2 lit))
  | 0x3A => some (.gmov g (XA.ofWords v d a b w2 lit))
  | 0x3B => some (.smov g (XA.ofWords v d a b w2 lit))
  | 0x3C => some (.spill g (XA.ofWords v d a b w2 lit))
  | 0x3D => some (.fill g (XA.ofWords v d a b w2 lit))
  | 0x40 => some (.ld g (XM.ofWords v d a b w2 lit))
  | 0x41 => some (.st g (XM.ofWords v d a b w2 lit))
  | 0x42 => some (.vld g (XM.ofWords v d a b w2 lit))
  | 0x43 => some (.vst g (XM.ofWords v d a b w2 lit))
  | 0x44 => some (.amo g (XM.ofWords v d a b w2 lit))
  | 0x45 => some (.acas g (XM.ofWords v d a b w2 lit))
  | 0x46 => some (.famo g (XM.ofWords v d a b w2 lit))
  | 0x47 => some (.mcas g (XM.ofWords v d a b w2 lit))
  | 0x48 => some (.lenq g (XM.ofWords v d a b w2 lit))
  | 0x49 => some (.pchase g (XM.ofWords v d a b w2 lit))
  | 0x4A => some (.fence g (XM.ofWords v d a b w2 lit))
  | 0x4B => some (.wait g (XM.ofWords v d a b w2 lit))
  | 0x4C => some (.commit g (XM.ofWords v d a b w2 lit))
  | 0x4D => some (.cvta g (XM.ofWords v d a b w2 lit))
  | 0x4E => some (.pf g (XM.ofWords v d a b w2 lit))
  | 0x4F => some (.cwb g (XM.ofWords v d a b w2 lit))
  | 0x60 => some (.send g (XM.ofWords v d a b w2 lit))
  | 0x61 => some (.sendr g (XM.ofWords v d a b w2 lit))
  | 0x62 => some (.tnow g (XM.ofWords v d a b w2 lit))
  | 0x63 => some (.tcur g (XM.ofWords v d a b w2 lit))
  | 0x64 => some (.larm g (XM.ofWords v d a b w2 lit))
  | 0x65 => some (.lpatch g (XM.ofWords v d a b w2 lit))
  | 0x66 => some (.lstat g (XM.ofWords v d a b w2 lit))
  | 0x67 => some (.bar g (XM.ofWords v d a b w2 lit))
  | 0x70 => some (.vaddExt g (XA.ofWords v d a b w2 lit))
  | 0x71 => some (.vsubExt g (XA.ofWords v d a b w2 lit))
  | 0x72 => some (.vmulExt g (XA.ofWords v d a b w2 lit))
  | 0x73 => some (.vmulhExt g (XA.ofWords v d a b w2 lit))
  | 0x74 => some (.vmadExt g (XA.ofWords v d a b w2 lit))
  | 0x75 => some (.vminExt g (XA.ofWords v d a b w2 lit))
  | 0x76 => some (.vmaxExt g (XA.ofWords v d a b w2 lit))
  | 0x77 => some (.vabsExt g (XA.ofWords v d a b w2 lit))
  | 0x78 => some (.vnegExt g (XA.ofWords v d a b w2 lit))
  | 0x79 => some (.vandExt g (XA.ofWords v d a b w2 lit))
  | 0x7A => some (.vorExt g (XA.ofWords v d a b w2 lit))
  | 0x7B => some (.vxorExt g (XA.ofWords v d a b w2 lit))
  | 0x7C => some (.vshlExt g (XA.ofWords v d a b w2 lit))
  | 0x7D => some (.vshrExt g (XA.ofWords v d a b w2 lit))
  | 0x7E => some (.vsarExt g (XA.ofWords v d a b w2 lit))
  | 0x7F => some (.vsraExt g (XA.ofWords v d a b w2 lit))
  | 0x80 => some (.vsat g (XA.ofWords v d a b w2 lit))
  | 0x81 => some (.vclamp g (XA.ofWords v d a b w2 lit))
  | 0x82 => some (.vsext g (XA.ofWords v d a b w2 lit))
  | 0x83 => some (.vzext g (XA.ofWords v d a b w2 lit))
  | 0x84 => some (.vcmp g (XA.ofWords v d a b w2 lit))
  | 0x85 => some (.vsel g (XA.ofWords v d a b w2 lit))
  | 0x86 => some (.vmovExt g (XA.ofWords v d a b w2 lit))
  | 0x87 => some (.vbcast g (XA.ofWords v d a b w2 lit))
  | 0x88 => some (.vext g (XA.ofWords v d a b w2 lit))
  | 0x89 => some (.vpermExt g (XA.ofWords v d a b w2 lit))
  | 0x8A => some (.vdot g (XA.ofWords v d a b w2 lit))
  | 0x8B => some (.vred g (XA.ofWords v d a b w2 lit))
  | 0x90 => some (.vfaddExt g (XA.ofWords v d a b w2 lit))
  | 0x91 => some (.vfsubExt g (XA.ofWords v d a b w2 lit))
  | 0x92 => some (.vfmulExt g (XA.ofWords v d a b w2 lit))
  | 0x93 => some (.vfmaExt g (XA.ofWords v d a b w2 lit))
  | 0x94 => some (.vfminExt g (XA.ofWords v d a b w2 lit))
  | 0x95 => some (.vfmaxExt g (XA.ofWords v d a b w2 lit))
  | 0x96 => some (.vfabsExt g (XA.ofWords v d a b w2 lit))
  | 0x97 => some (.vfnegExt g (XA.ofWords v d a b w2 lit))
  | 0x98 => some (.vfcmp g (XA.ofWords v d a b w2 lit))
  | 0x99 => some (.vfcvt g (XA.ofWords v d a b w2 lit))
  | 0x9A => some (.vfrcpExt g (XA.ofWords v d a b w2 lit))
  | 0x9B => some (.vfrsqExt g (XA.ofWords v d a b w2 lit))
  | 0x9C => some (.vfexp2Ext g (XA.ofWords v d a b w2 lit))
  | 0x9D => some (.vflog2Ext g (XA.ofWords v d a b w2 lit))
  | 0x9E => some (.vfclass g (XA.ofWords v d a b w2 lit))
  | 0x9F => some (.vqcb g (XA.ofWords v d a b w2 lit))
  | 0xA0 => some (.vbscale g (XA.ofWords v d a b w2 lit))
  | 0xA1 => some (.vfred g (XA.ofWords v d a b w2 lit))
  | 0xB0 => some (.mzero g (XT.ofWords v d a b w2 lit))
  | 0xB1 => some (.mma g (XT.ofWords v d a b w2 lit))
  | 0xB2 => some (.mtld g (XT.ofWords v d a b w2 lit))
  | 0xB3 => some (.mst g (XT.ofWords v d a b w2 lit))
  | 0xB4 => some (.mmask g (XT.ofWords v d a b w2 lit))
  | 0xB5 => some (.mrd g (XT.ofWords v d a b w2 lit))
  | 0xB6 => some (.mwr g (XT.ofWords v d a b w2 lit))
  | 0xB7 => some (.cp g (XT.ofWords v d a b w2 lit))
  | 0xB8 => some (.cpm g (XT.ofWords v d a b w2 lit))
  | 0xB9 => some (.mcb g (XT.ofWords v d a b w2 lit))
  | 0xBA => some (.mstat g (XT.ofWords v d a b w2 lit))
  | 0xBB => some (.msave g (XT.ofWords v d a b w2 lit))
  | 0xBC => some (.mrest g (XT.ofWords v d a b w2 lit))
  | 0xD0 => some (.rdsys g (XA.ofWords v d a b w2 lit))
  | 0xD1 => some (.wrsys g (XA.ofWords v d a b w2 lit))
  | 0xD2 => some (.freeze g (XA.ofWords v d a b w2 lit))
  | 0xD3 => some (.thaw g (XA.ofWords v d a b w2 lit))
  | 0xD4 => some (.trap g (XA.ofWords v d a b w2 lit))
  | 0xD5 => some (.migrate g (XA.ofWords v d a b w2 lit))
  | 0xD6 => some (.seal g (XA.ofWords v d a b w2 lit))
  | 0xD7 => some (.rdctr g (XA.ofWords v d a b w2 lit))
  | 0xD8 => some (.wrctr g (XA.ofWords v d a b w2 lit))
  | 0xD9 => some (.ctrcfg g (XA.ofWords v d a b w2 lit))
  | 0xDA => some (.wpset g (XA.ofWords v d a b w2 lit))
  | 0xDB => some (.wpclr g (XA.ofWords v d a b w2 lit))
  | 0xDC => some (.sigctl g (XA.ofWords v d a b w2 lit))
  | 0xDD => some (.pwrite g (XA.ofWords v d a b w2 lit))
  | _ => none

/-- The words an instruction is written from: its fields at their places in word 0 and, in the extended form, in
words 1 and 2 (Tables 08-2 to 08-9). The steps of other agents have no encoding. -/
def Instr.toRaw : Instr → Option Raw
  | .nop g => some (.base 0x00 g 0 none)
  | .nopExt g x => some (.ext 0x00 g x.var x.d x.a x.b x.w2 x.lit)
  | .br g off => some (.base 0x01 g off none)
  | .brx g a => some (.base 0x02 g (hiOf 0 a 0) none)
  | .brxExt g x => some (.ext 0x02 g x.var x.d x.a x.b x.w2 x.lit)
  | .call g off => some (.base 0x03 g off none)
  | .callx g o => some (.base 0x04 g o.hi none)
  | .callxExt g x => some (.ext 0x04 g x.var x.d x.a x.b x.w2 x.lit)
  | .ret g a => some (.base 0x05 g (hiOf 0 a 0) none)
  | .retExt g x => some (.ext 0x05 g x.var x.d x.a x.b x.w2 x.lit)
  | .rep g x => some (.ext 0x06 g x.var x.d x.a x.b x.w2 x.lit)
  | .done g => some (.base 0x07 g 0 none)
  | .doneExt g x => some (.ext 0x07 g x.var x.d x.a x.b x.w2 x.lit)
  | .iadd g o => some (.base 0x10 g o.hi o.lit)
  | .iaddExt g x => some (.ext 0x10 g x.var x.d x.a x.b x.w2 x.lit)
  | .isub g o => some (.base 0x11 g o.hi o.lit)
  | .isubExt g x => some (.ext 0x11 g x.var x.d x.a x.b x.w2 x.lit)
  | .imul g o => some (.base 0x12 g o.hi o.lit)
  | .imulExt g x => some (.ext 0x12 g x.var x.d x.a x.b x.w2 x.lit)
  | .imulh g o => some (.base 0x13 g o.hi o.lit)
  | .imulhExt g x => some (.ext 0x13 g x.var x.d x.a x.b x.w2 x.lit)
  | .imulhu g o => some (.base 0x14 g o.hi o.lit)
  | .imulhuExt g x => some (.ext 0x14 g x.var x.d x.a x.b x.w2 x.lit)
  | .idiv g o => some (.base 0x15 g o.hi o.lit)
  | .idivExt g x => some (.ext 0x15 g x.var x.d x.a x.b x.w2 x.lit)
  | .idivu g o => some (.base 0x16 g o.hi o.lit)
  | .idivuExt g x => some (.ext 0x16 g x.var x.d x.a x.b x.w2 x.lit)
  | .irem g o => some (.base 0x17 g o.hi o.lit)
  | .iremExt g x => some (.ext 0x17 g x.var x.d x.a x.b x.w2 x.lit)
  | .iremu g o => some (.base 0x18 g o.hi o.lit)
  | .iremuExt g x => some (.ext 0x18 g x.var x.d x.a x.b x.w2 x.lit)
  | .imin g o => some (.base 0x19 g o.hi o.lit)
  | .iminExt g x => some (.ext 0x19 g x.var x.d x.a x.b x.w2 x.lit)
  | .imax g o => some (.base 0x1A g o.hi o.lit)
  | .imaxExt g x => some (.ext 0x1A g x.var x.d x.a x.b x.w2 x.lit)
  | .iminu g o => some (.base 0x1B g o.hi o.lit)
  | .iminuExt g x => some (.ext 0x1B g x.var x.d x.a x.b x.w2 x.lit)
  | .imaxu g o => some (.base 0x1C g o.hi o.lit)
  | .imaxuExt g x => some (.ext 0x1C g x.var x.d x.a x.b x.w2 x.lit)
  | .iabs g o => some (.base 0x1D g o.hi none)
  | .iabsExt g x => some (.ext 0x1D g x.var x.d x.a x.b x.w2 x.lit)
  | .ineg g o => some (.base 0x1E g o.hi none)
  | .inegExt g x => some (.ext 0x1E g x.var x.d x.a x.b x.w2 x.lit)
  | .and g o => some (.base 0x1F g o.hi o.lit)
  | .andExt g x => some (.ext 0x1F g x.var x.d x.a x.b x.w2 x.lit)
  | .or g o => some (.base 0x20 g o.hi o.lit)
  | .orExt g x => some (.ext 0x20 g x.var x.d x.a x.b x.w2 x.lit)
  | .xor g o => some (.base 0x21 g o.hi o.lit)
  | .xorExt g x => some (.ext 0x21 g x.var x.d x.a x.b x.w2 x.lit)
  | .andn g o => some (.base 0x22 g o.hi o.lit)
  | .andnExt g x => some (.ext 0x22 g x.var x.d x.a x.b x.w2 x.lit)
  | .orn g o => some (.base 0x23 g o.hi o.lit)
  | .ornExt g x => some (.ext 0x23 g x.var x.d x.a x.b x.w2 x.lit)
  | .shl g o => some (.base 0x24 g o.hi o.lit)
  | .shlExt g x => some (.ext 0x24 g x.var x.d x.a x.b x.w2 x.lit)
  | .shr g o => some (.base 0x25 g o.hi o.lit)
  | .shrExt g x => some (.ext 0x25 g x.var x.d x.a x.b x.w2 x.lit)
  | .sar g o => some (.base 0x26 g o.hi o.lit)
  | .sarExt g x => some (.ext 0x26 g x.var x.d x.a x.b x.w2 x.lit)
  | .rol g o => some (.base 0x27 g o.hi o.lit)
  | .rolExt g x => some (.ext 0x27 g x.var x.d x.a x.b x.w2 x.lit)
  | .clz g o => some (.base 0x28 g o.hi none)
  | .clzExt g x => some (.ext 0x28 g x.var x.d x.a x.b x.w2 x.lit)
  | .ctz g o => some (.base 0x29 g o.hi none)
  | .ctzExt g x => some (.ext 0x29 g x.var x.d x.a x.b x.w2 x.lit)
  | .popc g o => some (.base 0x2A g o.hi none)
  | .popcExt g x => some (.ext 0x2A g x.var x.d x.a x.b x.w2 x.lit)
  | .sext g x => some (.ext 0x2B g x.var x.d x.a x.b x.w2 x.lit)
  | .zext g x => some (.ext 0x2C g x.var x.d x.a x.b x.w2 x.lit)
  | .bfx g x => some (.ext 0x2D g x.var x.d x.a x.b x.w2 x.lit)
  | .bfi g x => some (.ext 0x2E g x.var x.d x.a x.b x.w2 x.lit)
  | .mov g o => some (.base 0x2F g o.hi none)
  | .movExt g x => some (.ext 0x2F g x.var x.d x.a x.b x.w2 x.lit)
  | .li g o => some (.base 0x30 g o.hi none)
  | .liExt g x => some (.ext 0x30 g x.var x.d x.a x.b x.w2 x.lit)
  | .lea g o => some (.base 0x31 g o.hi o.lit)
  | .leaExt g x => some (.ext 0x31 g x.var x.d x.a x.b x.w2 x.lit)
  | .sel g x => some (.ext 0x32 g x.var x.d x.a x.b x.w2 x.lit)
  | .icmpEq g o => some (.base 0x33 g o.hi o.lit)
  | .icmpEqExt g x => some (.ext 0x33 g x.var x.d x.a x.b x.w2 x.lit)
  | .icmpNe g o => some (.base 0x34 g o.hi o.lit)
  | .icmpNeExt g x => some (.ext 0x34 g x.var x.d x.a x.b x.w2 x.lit)
  | .icmpLt g o => some (.base 0x35 g o.hi o.lit)
  | .icmpLtExt g x => some (.ext 0x35 g x.var x.d x.a x.b x.w2 x.lit)
  | .icmpLe g o => some (.base 0x36 g o.hi o.lit)
  | .icmpLeExt g x => some (.ext 0x36 g x.var x.d x.a x.b x.w2 x.lit)
  | .icmpLtu g o => some (.base 0x37 g o.hi o.lit)
  | .icmpLtuExt g x => some (.ext 0x37 g x.var x.d x.a x.b x.w2 x.lit)
  | .icmpLeu g o => some (.base 0x38 g o.hi o.lit)
  | .icmpLeuExt g x => some (.ext 0x38 g x.var x.d x.a x.b x.w2 x.lit)
  | .gop g x => some (.ext 0x39 g x.var x.d x.a x.b x.w2 x.lit)
  | .gmov g x => some (.ext 0x3A g x.var x.d x.a x.b x.w2 x.lit)
  | .smov g x => some (.ext 0x3B g x.var x.d x.a x.b x.w2 x.lit)
  | .spill g x => some (.ext 0x3C g x.var x.d x.a x.b x.w2 x.lit)
  | .fill g x => some (.ext 0x3D g x.var x.d x.a x.b x.w2 x.lit)
  | .iaddi g o => some (.base 0x3E g o.hi none)
  | .ld g x => some (.ext 0x40 g x.var x.d x.a x.b x.w2 x.lit)
  | .st g x => some (.ext 0x41 g x.var x.d x.a x.b x.w2 x.lit)
  | .vld g x => some (.ext 0x42 g x.var x.d x.a x.b x.w2 x.lit)
  | .vst g x => some (.ext 0x43 g x.var x.d x.a x.b x.w2 x.lit)
  | .amo g x => some (.ext 0x44 g x.var x.d x.a x.b x.w2 x.lit)
  | .acas g x => some (.ext 0x45 g x.var x.d x.a x.b x.w2 x.lit)
  | .famo g x => some (.ext 0x46 g x.var x.d x.a x.b x.w2 x.lit)
  | .mcas g x => some (.ext 0x47 g x.var x.d x.a x.b x.w2 x.lit)
  | .lenq g x => some (.ext 0x48 g x.var x.d x.a x.b x.w2 x.lit)
  | .pchase g x => some (.ext 0x49 g x.var x.d x.a x.b x.w2 x.lit)
  | .fence g x => some (.ext 0x4A g x.var x.d x.a x.b x.w2 x.lit)
  | .wait g x => some (.ext 0x4B g x.var x.d x.a x.b x.w2 x.lit)
  | .commit g x => some (.ext 0x4C g x.var x.d x.a x.b x.w2 x.lit)
  | .cvta g x => some (.ext 0x4D g x.var x.d x.a x.b x.w2 x.lit)
  | .pf g x => some (.ext 0x4E g x.var x.d x.a x.b x.w2 x.lit)
  | .cwb g x => some (.ext 0x4F g x.var x.d x.a x.b x.w2 x.lit)
  | .send g x => some (.ext 0x60 g x.var x.d x.a x.b x.w2 x.lit)
  | .sendr g x => some (.ext 0x61 g x.var x.d x.a x.b x.w2 x.lit)
  | .tnow g x => some (.ext 0x62 g x.var x.d x.a x.b x.w2 x.lit)
  | .tcur g x => some (.ext 0x63 g x.var x.d x.a x.b x.w2 x.lit)
  | .larm g x => some (.ext 0x64 g x.var x.d x.a x.b x.w2 x.lit)
  | .lpatch g x => some (.ext 0x65 g x.var x.d x.a x.b x.w2 x.lit)
  | .lstat g x => some (.ext 0x66 g x.var x.d x.a x.b x.w2 x.lit)
  | .bar g x => some (.ext 0x67 g x.var x.d x.a x.b x.w2 x.lit)
  | .vadd g o => some (.base 0x70 g o.hi o.lit)
  | .vaddExt g x => some (.ext 0x70 g x.var x.d x.a x.b x.w2 x.lit)
  | .vsub g o => some (.base 0x71 g o.hi o.lit)
  | .vsubExt g x => some (.ext 0x71 g x.var x.d x.a x.b x.w2 x.lit)
  | .vmul g o => some (.base 0x72 g o.hi o.lit)
  | .vmulExt g x => some (.ext 0x72 g x.var x.d x.a x.b x.w2 x.lit)
  | .vmulh g o => some (.base 0x73 g o.hi o.lit)
  | .vmulhExt g x => some (.ext 0x73 g x.var x.d x.a x.b x.w2 x.lit)
  | .vmad g o => some (.base 0x74 g o.hi o.lit)
  | .vmadExt g x => some (.ext 0x74 g x.var x.d x.a x.b x.w2 x.lit)
  | .vmin g o => some (.base 0x75 g o.hi o.lit)
  | .vminExt g x => some (.ext 0x75 g x.var x.d x.a x.b x.w2 x.lit)
  | .vmax g o => some (.base 0x76 g o.hi o.lit)
  | .vmaxExt g x => some (.ext 0x76 g x.var x.d x.a x.b x.w2 x.lit)
  | .vabs g o => some (.base 0x77 g o.hi none)
  | .vabsExt g x => some (.ext 0x77 g x.var x.d x.a x.b x.w2 x.lit)
  | .vneg g o => some (.base 0x78 g o.hi none)
  | .vnegExt g x => some (.ext 0x78 g x.var x.d x.a x.b x.w2 x.lit)
  | .vand g o => some (.base 0x79 g o.hi o.lit)
  | .vandExt g x => some (.ext 0x79 g x.var x.d x.a x.b x.w2 x.lit)
  | .vor g o => some (.base 0x7A g o.hi o.lit)
  | .vorExt g x => some (.ext 0x7A g x.var x.d x.a x.b x.w2 x.lit)
  | .vxor g o => some (.base 0x7B g o.hi o.lit)
  | .vxorExt g x => some (.ext 0x7B g x.var x.d x.a x.b x.w2 x.lit)
  | .vshl g o => some (.base 0x7C g o.hi o.lit)
  | .vshlExt g x => some (.ext 0x7C g x.var x.d x.a x.b x.w2 x.lit)
  | .vshr g o => some (.base 0x7D g o.hi o.lit)
  | .vshrExt g x => some (.ext 0x7D g x.var x.d x.a x.b x.w2 x.lit)
  | .vsar g o => some (.base 0x7E g o.hi o.lit)
  | .vsarExt g x => some (.ext 0x7E g x.var x.d x.a x.b x.w2 x.lit)
  | .vsra g o => some (.base 0x7F g o.hi o.lit)
  | .vsraExt g x => some (.ext 0x7F g x.var x.d x.a x.b x.w2 x.lit)
  | .vsat g x => some (.ext 0x80 g x.var x.d x.a x.b x.w2 x.lit)
  | .vclamp g x => some (.ext 0x81 g x.var x.d x.a x.b x.w2 x.lit)
  | .vsext g x => some (.ext 0x82 g x.var x.d x.a x.b x.w2 x.lit)
  | .vzext g x => some (.ext 0x83 g x.var x.d x.a x.b x.w2 x.lit)
  | .vcmp g x => some (.ext 0x84 g x.var x.d x.a x.b x.w2 x.lit)
  | .vsel g x => some (.ext 0x85 g x.var x.d x.a x.b x.w2 x.lit)
  | .vmov g o => some (.base 0x86 g o.hi none)
  | .vmovExt g x => some (.ext 0x86 g x.var x.d x.a x.b x.w2 x.lit)
  | .vbcast g x => some (.ext 0x87 g x.var x.d x.a x.b x.w2 x.lit)
  | .vext g x => some (.ext 0x88 g x.var x.d x.a x.b x.w2 x.lit)
  | .vperm g o => some (.base 0x89 g o.hi o.lit)
  | .vpermExt g x => some (.ext 0x89 g x.var x.d x.a x.b x.w2 x.lit)
  | .vdot g x => some (.ext 0x8A g x.var x.d x.a x.b x.w2 x.lit)
  | .vred g x => some (.ext 0x8B g x.var x.d x.a x.b x.w2 x.lit)
  | .vfadd g o => some (.base 0x90 g o.hi o.lit)
  | .vfaddExt g x => some (.ext 0x90 g x.var x.d x.a x.b x.w2 x.lit)
  | .vfsub g o => some (.base 0x91 g o.hi o.lit)
  | .vfsubExt g x => some (.ext 0x91 g x.var x.d x.a x.b x.w2 x.lit)
  | .vfmul g o => some (.base 0x92 g o.hi o.lit)
  | .vfmulExt g x => some (.ext 0x92 g x.var x.d x.a x.b x.w2 x.lit)
  | .vfma g o => some (.base 0x93 g o.hi o.lit)
  | .vfmaExt g x => some (.ext 0x93 g x.var x.d x.a x.b x.w2 x.lit)
  | .vfmin g o => some (.base 0x94 g o.hi o.lit)
  | .vfminExt g x => some (.ext 0x94 g x.var x.d x.a x.b x.w2 x.lit)
  | .vfmax g o => some (.base 0x95 g o.hi o.lit)
  | .vfmaxExt g x => some (.ext 0x95 g x.var x.d x.a x.b x.w2 x.lit)
  | .vfabs g o => some (.base 0x96 g o.hi none)
  | .vfabsExt g x => some (.ext 0x96 g x.var x.d x.a x.b x.w2 x.lit)
  | .vfneg g o => some (.base 0x97 g o.hi none)
  | .vfnegExt g x => some (.ext 0x97 g x.var x.d x.a x.b x.w2 x.lit)
  | .vfcmp g x => some (.ext 0x98 g x.var x.d x.a x.b x.w2 x.lit)
  | .vfcvt g x => some (.ext 0x99 g x.var x.d x.a x.b x.w2 x.lit)
  | .vfrcp g o => some (.base 0x9A g o.hi none)
  | .vfrcpExt g x => some (.ext 0x9A g x.var x.d x.a x.b x.w2 x.lit)
  | .vfrsq g o => some (.base 0x9B g o.hi none)
  | .vfrsqExt g x => some (.ext 0x9B g x.var x.d x.a x.b x.w2 x.lit)
  | .vfexp2 g o => some (.base 0x9C g o.hi none)
  | .vfexp2Ext g x => some (.ext 0x9C g x.var x.d x.a x.b x.w2 x.lit)
  | .vflog2 g o => some (.base 0x9D g o.hi none)
  | .vflog2Ext g x => some (.ext 0x9D g x.var x.d x.a x.b x.w2 x.lit)
  | .vfclass g x => some (.ext 0x9E g x.var x.d x.a x.b x.w2 x.lit)
  | .vqcb g x => some (.ext 0x9F g x.var x.d x.a x.b x.w2 x.lit)
  | .vbscale g x => some (.ext 0xA0 g x.var x.d x.a x.b x.w2 x.lit)
  | .vfred g x => some (.ext 0xA1 g x.var x.d x.a x.b x.w2 x.lit)
  | .mzero g x => some (.ext 0xB0 g x.var x.d x.a x.b x.w2 x.lit)
  | .mma g x => some (.ext 0xB1 g x.var x.d x.a x.b x.w2 x.lit)
  | .mtld g x => some (.ext 0xB2 g x.var x.d x.a x.b x.w2 x.lit)
  | .mst g x => some (.ext 0xB3 g x.var x.d x.a x.b x.w2 x.lit)
  | .mmask g x => some (.ext 0xB4 g x.var x.d x.a x.b x.w2 x.lit)
  | .mrd g x => some (.ext 0xB5 g x.var x.d x.a x.b x.w2 x.lit)
  | .mwr g x => some (.ext 0xB6 g x.var x.d x.a x.b x.w2 x.lit)
  | .cp g x => some (.ext 0xB7 g x.var x.d x.a x.b x.w2 x.lit)
  | .cpm g x => some (.ext 0xB8 g x.var x.d x.a x.b x.w2 x.lit)
  | .mcb g x => some (.ext 0xB9 g x.var x.d x.a x.b x.w2 x.lit)
  | .mstat g x => some (.ext 0xBA g x.var x.d x.a x.b x.w2 x.lit)
  | .msave g x => some (.ext 0xBB g x.var x.d x.a x.b x.w2 x.lit)
  | .mrest g x => some (.ext 0xBC g x.var x.d x.a x.b x.w2 x.lit)
  | .rdsys g x => some (.ext 0xD0 g x.var x.d x.a x.b x.w2 x.lit)
  | .wrsys g x => some (.ext 0xD1 g x.var x.d x.a x.b x.w2 x.lit)
  | .freeze g x => some (.ext 0xD2 g x.var x.d x.a x.b x.w2 x.lit)
  | .thaw g x => some (.ext 0xD3 g x.var x.d x.a x.b x.w2 x.lit)
  | .trap g x => some (.ext 0xD4 g x.var x.d x.a x.b x.w2 x.lit)
  | .migrate g x => some (.ext 0xD5 g x.var x.d x.a x.b x.w2 x.lit)
  | .seal g x => some (.ext 0xD6 g x.var x.d x.a x.b x.w2 x.lit)
  | .rdctr g x => some (.ext 0xD7 g x.var x.d x.a x.b x.w2 x.lit)
  | .wrctr g x => some (.ext 0xD8 g x.var x.d x.a x.b x.w2 x.lit)
  | .ctrcfg g x => some (.ext 0xD9 g x.var x.d x.a x.b x.w2 x.lit)
  | .wpset g x => some (.ext 0xDA g x.var x.d x.a x.b x.w2 x.lit)
  | .wpclr g x => some (.ext 0xDB g x.var x.d x.a x.b x.w2 x.lit)
  | .sigctl g x => some (.ext 0xDC g x.var x.d x.a x.b x.w2 x.lit)
  | .pwrite g x => some (.ext 0xDD g x.var x.d x.a x.b x.w2 x.lit)
  | .bfmtWrite _ _ => none
  | .bankRewrite _ _ => none
  | .pgans _ => none
  | .pginv _ => none
  | .frmctlAttributes _ => none
  | .frmctlWithdraw _ => none
  | .frmctlFill _ => none
  | .frmctlRestore _ => none
  | .sysregWrite _ _ => none
  | .loadDataArrival _ => none
  | .storeAck _ => none
  | .drainEnd _ => none
  | .doneRetire _ => none
  | .commitComplete _ => none
  | .engineCompletion _ => none
  | .weevilReply _ => none
  | .localTimeAdvance _ _ _ => none
  | .eventArrival _ => none
  | .tableWalkDone _ => none
  | .pagerAnswerArrival _ => none
  | .pinReply _ => none
  | .dispatch _ => none
  | .priorityAging _ => none
  | .lateTranslationFill _ => none
  | .buddyTimeout _ => none
  | .forwardExpiry _ _ => none
  | .migrationTakeover _ => none
  | .disarmRelease _ => none
  | .coreRestart _ => none
  | .replayFeedInput _ => none
  | .gateLoadRequest _ => none
  | .gateStoreRequest _ => none
  | .gateAtomicRequest _ => none
  | .weevilFamo _ => none
  | .weevilMcas _ => none
  | .weevilLenq _ => none
  | .weevilPchase _ => none
  | .pchaseSlotTimeout _ => none
  | .pinMessage _ => none
  | .creditReturn _ => none
  | .spareRequest _ => none
  | .spareGrant _ => none
  | .rewriteNotice _ => none
  | .rewriteAck _ => none
  | .heldReadTimeout _ => none
  | .replyTimeout _ => none
  | .migrationEntryWrite _ _ _ _ => none
  | .migrationLineCopy _ _ => none
  | .sideTableWrite _ _ => none
  | .flitReceive _ _ => none
  | .nakReceived _ _ => none
  | .retrainDone _ => none
  | .keySwitchMarker _ => none
  | .markerReceived _ _ => none
  | .laneFailure _ _ => none
  | .switchFlitRoute _ _ => none
  | .combinedReplySplit _ _ _ _ => none
  | .heartbeatSend _ => none
  | .heartbeatReceive _ _ _ => none
  | .heartbeatTimeout _ _ _ => none
  | .memberNotice _ _ _ => none
  | .timingExchange _ _ _ => none
  | .timingRequest _ => none
  | .timingReply _ _ _ => none
  | .cxlMemRead _ _ _ => none
  | .cxlMemWrite _ _ _ => none
  | .mailboxGo _ => none
  | .hsemAcquire _ _ => none
  | .hsemRelease _ => none
  | .hostLinkDown _ => none
  | .armctlArm _ _ => none
  | .armctlDisarm _ _ => none
  | .attestRequest _ => none
  | .attestComplete _ => none
  | .bhpartWrite _ _ _ => none
  | .bulkheadReset _ _ => none
  | .bulkheadResetEnd _ => none
  | .pcfgWrite _ _ _ => none
  | .pwrReqOn _ _ => none
  | .pwrReqIdle _ _ => none
  | .pwrReqOff _ _ => none
  | .windowTableWrite _ _ _ _ => none
  | .trwpWrite _ _ _ => none
  | .stopRequest _ _ _ => none
  | .stopRelease _ _ _ => none
  | .deadMemberClear _ _ _ => none
  | .mgmtRegisterWrite _ _ _ => none
  | .thermalThrottle _ _ => none
  | .thermalTrip _ _ => none
  | .powerCapExceeded _ _ => none
  | .modulePowerOn _ _ _ => none
  | .bootLeadTimeout _ => none
  | .bootDone _ => none
  | .moduleReset _ => none
  | .referenceLockLoss _ _ => none
  | .referenceLockReturn _ _ => none
  | .switchFailure _ => none
  | .retiredSlotKeyLoad _ => none
  | .hostLinkUp _ => none
  | .powerWithinCap _ _ => none
  | .memoryBitError _ _ _ => none

/-- The outcome of decoding: an instruction, or the number of the failing check of Table 08-14. -/
inductive Decoded where
  | ok (i : Instr)
  | reserved (check : Nat)
  deriving DecidableEq, Repr

/-- Decode checks 1 to 6 in ascending order (R164); an encoding that passes them all is an instruction (R166). -/
def Raw.decode (r : Raw) : Decoded :=
  match r.failedCheck with
  | some c => .reserved c
  | none =>
    match (match r with
      | .base op g hi lit => baseInstr op g hi lit
      | .ext op g v d a b w2 lit => extInstr op g v d a b w2 lit) with
    | some i => .ok i
    | none => .reserved 1

/-- The words of an instruction's length (Table 08-1): 1, 3, 3 or 5. -/
def lengthWords (w0 : W32) : Nat :=
  match (w0.extractLsb' 0 2).toNat with
  | 0 => 1
  | 1 => 3
  | 2 => 3
  | _ => 5

/-- The length of an instruction in bytes (R146). -/
def lengthBytes (w0 : W32) : Nat := 4 * lengthWords w0

/-- The fields of an instruction's words, in the word order of Table 08-1; `none` where words are missing. -/
def Raw.ofWords : List W32 → Option Raw
  | w0 :: rest =>
    let op := w0.extractLsb' 6 8
    let g : Guard := ⟨w0.getLsbD 5, w0.extractLsb' 2 3⟩
    match (w0.extractLsb' 0 2).toNat, rest with
    | 0, _ => some (.base op g (w0.extractLsb' 14 18) none)
    | 1, l0 :: l1 :: _ => some (.base op g (w0.extractLsb' 14 18) (some (l1 ++ l0)))
    | 2, w1 :: w2 :: _ =>
      some (.ext op g (w0.extractLsb' 14 2) (Slot.ofBits (w0.extractLsb' 16 16)) (Slot.ofBits (w1.extractLsb' 0 16))
        (Slot.ofBits (w1.extractLsb' 16 16)) w2 none)
    | 3, w1 :: w2 :: l0 :: l1 :: _ =>
      some (.ext op g (w0.extractLsb' 14 2) (Slot.ofBits (w0.extractLsb' 16 16)) (Slot.ofBits (w1.extractLsb' 0 16))
        (Slot.ofBits (w1.extractLsb' 16 16)) w2 (some (l1 ++ l0)))
    | _, _ => none
  | [] => none

/-- Word 0 of a base form (Tables 08-2 to 08-4). -/
def baseWord (op : BitVec 8) (g : Guard) (hi : BitVec 18) (len : BitVec 2) : W32 :=
  hi ++ (op ++ (BitVec.ofBool g.neg ++ (g.idx ++ len)))

/-- The words of the fields (Table 08-1): the inverse of `Raw.ofWords`. -/
def Raw.words : Raw → List W32
  | .base op g hi none => [baseWord op g hi 0]
  | .base op g hi (some l) => [baseWord op g hi 1, l.extractLsb' 0 32, l.extractLsb' 32 32]
  | .ext op g v d a b w2 none => [baseWord op g (d.bits ++ v) 2, b.bits ++ a.bits, w2]
  | .ext op g v d a b w2 (some l) =>
    [baseWord op g (d.bits ++ v) 3, b.bits ++ a.bits, w2, l.extractLsb' 0 32, l.extractLsb' 32 32]

/-- The words of an instruction; a step of another agent has none. -/
def encode (i : Instr) : List W32 :=
  match i.toRaw with
  | some r => r.words
  | none => []

/-- Decoding on any words; `none` only where words are missing. -/
def decodeWords (ws : List W32) : Option Decoded := (Raw.ofWords ws).map Raw.decode

/-- An instruction is well-formed when its words pass decode checks 1 to 6 (R166); a step of another agent
has no words to judge. -/
def Instr.wellFormed (i : Instr) : Bool :=
  match i.toRaw with
  | some r => r.failedCheck.isNone
  | none => true

/-- Four bytes, lowest address first, as a word (R7). -/
def word32OfBytes : List Byte → W32
  | b0 :: b1 :: b2 :: b3 :: _ => b3 ++ (b2 ++ (b1 ++ b0))
  | _ => 0

/-- The words held by a byte string stored lowest address first (R7, R146). -/
def wordsOfBytes : List Byte → List W32
  | b0 :: b1 :: b2 :: b3 :: rest => word32OfBytes [b0, b1, b2, b3] :: wordsOfBytes rest
  | _ => []

/-- The bytes of a word, lowest address first (R7). -/
def bytesOfWord32 (w : W32) : List Byte :=
  [w.extractLsb' 0 8, w.extractLsb' 8 8, w.extractLsb' 16 8, w.extractLsb' 24 8]

/-- The bytes in memory of an instruction's words (R7). -/
def bytesOfWords (ws : List W32) : List Byte := ws.flatMap bytesOfWord32

/-- The words of a number whose bit 0 is the least significant bit of word 0: five words, those above `nbits` zero. -/
def tableWords (nbits w : Nat) : List W32 :=
  (List.range 5).map fun i => BitVec.ofNat 32 ((w % 2 ^ nbits) >>> (32 * i))

/-- The instruction decoded from bits numbered as spec/opcode_table.json numbers them. -/
def decodeTableWord (nbits w : Nat) : Option Instr :=
  match decodeWords (wordsOfBytes (bytesOfWords (tableWords nbits w))) with
  | some (.ok i) => some i
  | _ => none

end Sys2Proof
end

