-- ==== Sys2Proof/Machine/Fetch.lean ====
section
/-! DEFINITION. Fetch.lean: fetching an instruction's words through the activation's pinned code pages (R148, R216), and the
place of an instruction in a repetition (R193, R195). -/

namespace Sys2Proof.Machine

/-- Whether an address may be fetched from at all: word-aligned, in a paged window (R147, R216), bits [59:48] zero. -/
def fetchable (a : W64) : Bool :=
  a.extractLsb' 0 2 = 0 && a.extractLsb' 48 12 = 0 && 3 ≤ (a.extractLsb' 60 4).toNat && (a.extractLsb' 60 4).toNat ≤ 0xD

/-- Whether a transfer's target passes R216: bits [1:0] zero and bits [63:60] from 0x3 to 0xD. -/
def targetOk (a : W64) : Bool :=
  a.extractLsb' 0 2 = 0 && 3 ≤ (a.extractLsb' 60 4).toNat && (a.extractLsb' 60 4).toNat ≤ 0xD

/-- The physical address of a code address in a list of pinned code pages. -/
def codePa : List CodePage → Nat → Option Nat
  | [], _ => none
  | p :: ps, a => if p.va ≤ a ∧ a < p.va + p.size then some (p.pa + (a - p.va)) else codePa ps a

/-- One word of code of a thread set, read at its line's current home (R81, R148); `none` where no pinned code page maps it. A fetch
adds nothing to the side table of a remote frame (log 92, DESIGN CHOICE), and it delivers what is stored, errors and poison or not, with
no report (log 93, DESIGN CHOICE). -/
def State.codeWord (s : State) (u : Nat) (a : W64) : Option W32 :=
  (codePa (s.act u).code a.toNat).map fun p => BitVec.ofNat 32 (s.rawNat (homeOf s p) 4)

/-- The watchpoints see the read of a code word (R337). -/
def codeHit (u pa : Nat) (s : State) : State := watchHit (s.agent u 0) true false (homeOf s pa) 4 [] s
/-- They see the fetch of n words from an address. (log 97, DESIGN CHOICE) -/
def codeHits (u n : Nat) (a : W64) (s : State) : State :=
  (List.range n).foldl (fun s i => match codePa (s.act u).code (a + BitVec.ofNat 64 (4 * i)).toNat with
    | some pa => codeHit u pa s
    | none => s) s

/-- The words of the instruction at an address, or the first address that no code page maps. -/
def State.codeWords (s : State) (u : Nat) (a : W64) : Except W64 (List W32) :=
  match s.codeWord u a with
  | none => .error a
  | some w0 =>
    (List.range (lengthWords w0 - 1)).foldl (fun acc i =>
      match acc with
      | .error e => .error e
      | .ok ws =>
        let b := a + BitVec.ofNat 64 (4 * (i + 1))
        match s.codeWord u b with
        | none => .error b
        | some w => .ok (ws ++ [w])) (.ok [w0])

/-- The address after n instructions counted by their lengths (R193), or the first address that is not mapped. -/
def State.codeSkip (s : State) (u : Nat) : Nat → W64 → Except W64 W64
  | 0, a => .ok a
  | n + 1, a =>
    match s.codeWord u a with
    | none => .error a
    | some w0 => State.codeSkip s u n (a + BitVec.ofNat 64 (lengthBytes w0))

/-- The address that a failing fetch reports: an instruction's word 0 for any of its words (R216, R362). (log 17, DEDUCED) -/
def fetchAddr (s : State) (u : Nat) (a : W64) : W64 :=
  let pc := (s.th u).pc
  let n := match s.codeWord u pc with
    | some w => lengthBytes w
    | none => 4
  if pc ≤ a && a.toNat < pc.toNat + n then pc else a

/-- The address trap of a fetch (R216); it waits for older loads and register results (R196). (log 17, DEDUCED) -/
def fetchTrap (u : Nat) (a : W64) (s : State) : State :=
  if s.awaits u then s else freezeAt u 0x02 none (fetchAddr s u a) s

/-- A fetch that no code page serves: the sequencer walks for the page and the thread set waits for it; an address
outside the paged windows raises the address trap (R216). (log 17, DEDUCED) -/
def fetchMiss (u : Nat) (a : W64) (s : State) : State :=
  if fetchable a then
    (s.modTh u fun t => { t with mode := .parked s.nextId }).emit (.walk (.code u a.toNat) false)
  else fetchTrap u a s

/-! ### REPST (Table 10-4) -/

def Thread.repAct (t : Thread) : Bool := t.repst.getLsbD 47
def Thread.repN (t : Thread) : Nat := (t.repst.extractLsb' 43 4).toNat + 1
def Thread.repS (t : Thread) : Int := sgn (t.repst.extractLsb' 34 9).toNat 9
def Thread.repK (t : Thread) : Nat := (t.repst.extractLsb' 22 12).toNat + 1
def Thread.repJ (t : Thread) : Nat := (t.repst.extractLsb' 10 12).toNat
def Thread.repOff (t : Thread) : Nat := (t.repst.extractLsb' 0 10).toNat
def mkRepst (n : Nat) (s : BitVec 9) (k j off : Nat) : BitVec 48 :=
  1#1 ++ (BitVec.ofNat 4 (n - 1) ++ (s ++ (BitVec.ofNat 12 (k - 1) ++ (BitVec.ofNat 12 j ++ BitVec.ofNat 10 off))))

/-- A staggered field of a body instruction at the current pass, an operand of `w` slices: its start moved by J times the
stride; `none` when it leaves its file (check 7). -/
def stagSlot (t : Thread) (w : Nat) (s : Slot) : Option Slot :=
  if !s.stag || 2 ≤ s.file.toNat then some s
  else
    let st : Int := s.start.toNat + t.repJ * t.repS
    let lim : Int := if s.file = 0 then 512 else 256
    if st < 0 ∨ st + w > lim then none else some { s with start := BitVec.ofNat 9 st.toNat }

/-- A field of a row at the current pass: a control field does not move (R193). -/
def stagUse (t : Thread) (u : Use) (w : Nat) (s : Slot) : Option Slot := if u = .ctl then some s else stagSlot t w s

/-- An instruction of a repetition's body at the current pass: its staggered fields moved, checks 1 to 6 judged with
check 7 in place of check 5 for them (R164, R193). The a of a cpm is 32 slices wide (R310). -/
def stagger (t : Thread) (r : Raw) : Except Nat Raw :=
  match r.failedCheckAt true with
  | some c => .error c
  | none =>
    match r with
    | .base .. => .ok r
    | .ext op g v d a b w2 lit =>
      match opRow op with
      | none => .ok r
      | some row =>
        let c := Slot.ofBits (w2.extractLsb' 0 16)
        let arith := !isMemOp op && !isMatOp op
        let b' := if lit.isSome then some b else stagUse t row.b b.width b
        let c' := if arith then stagUse t row.c c.width c else some c
        match stagUse t row.d d.width d, stagUse t row.a (if op = 0xB8 then 32 else a.width) a, b', c' with
        | some d, some a, some b, some c =>
          .ok (.ext op g v d a b (if arith then (w2.extractLsb' 16 16) ++ c.bits else w2) lit)
        | _, _, _, _ => .error 7

/-! ### The body of a repetition -/

/-- How many instructions stand from one address of mapped code up to another, counted by their lengths (R193). -/
def State.codeCount (s : State) (u : Nat) : Nat → W64 → W64 → Nat
  | 0, _, _ => 0
  | n + 1, a, stop =>
    if stop.toNat ≤ a.toNat then 0
    else match s.codeWord u a with
      | none => 0
      | some w0 => State.codeCount s u n (a + BitVec.ofNat 64 (lengthBytes w0)) stop + 1

/-- The start of the body whose instruction the thread set is at. -/
def Thread.repStart (t : Thread) : W64 := t.pc - BitVec.ofNat 64 t.repOff

/-- The first address of the running body up to the instruction at the program counter that no code page maps. -/
def repMiss (s : State) (u : Nat) : Option W64 :=
  let t := s.th u
  if !t.repAct then none
  else ((List.range (t.repOff / 4 + 1)).map fun i => t.repStart + BitVec.ofNat 64 (4 * i)).find? fun a =>
    (s.codeWord u a).isNone

/-- After a body instruction has fallen through to the next address: the next instruction of the body, the next pass,
or the end of the repetition (R193). `len` is the instruction's length. -/
def repNext (u len : Nat) (s : State) : State :=
  let t := s.th u
  let start := t.pc - BitVec.ofNat 64 (t.repOff + len)
  let sB : BitVec 9 := t.repst.extractLsb' 34 9
  if s.codeCount u 16 start (t.pc - BitVec.ofNat 64 len) + 1 < t.repN then
    s.modTh u fun t => { t with repst := mkRepst t.repN sB t.repK t.repJ (t.repOff + len) }
  else if t.repJ + 1 < t.repK then
    s.modTh u fun t => { t with repst := mkRepst t.repN sB t.repK (t.repJ + 1) 0, pc := start }
  else s.modTh u fun t => { t with repst := 0 }

end Sys2Proof.Machine
end

