-- ==== Sys2Proof/Machine/Scalar.lean ====
section
/-! DEFINITION. Scalar.lean: the scalar integer instructions (R197 to R209), the compares and guard instructions (R210 to
R212), smov (R189), spill and fill (R190, R191). -/

namespace Sys2Proof.Machine

/-- The operation width N of a two-source instruction (R197). -/
def Opnds.n (o : Opnds) : Nat := 4 * max o.d.width (max o.a.width o.b.width)

/-- A binary scalar instruction: f takes N, A and B; its result is taken modulo 2^N and truncated to d (R198). -/
def binary (f : Nat → Nat → Nat → Nat) (g : Guard) (o : Opnds) (s : State) : Out :=
  scalarR g o.len (fun r =>
    let n := o.n
    r.put o.d (f n (ext o.ty (readSlices r.scalar o.a) (4 * o.a.width) n) (o.b.ext o.ty n r) % 2 ^ n)) s

/-- A unary scalar instruction at N = 4 max(d, a) (R200). -/
def unary (f : Nat → Nat → Nat) (g : Guard) (o : Opnds) (s : State) : Out :=
  scalarR g o.len (fun r =>
    let n := 4 * max o.d.width o.a.width
    r.put o.d (f n (ext o.ty (readSlices r.scalar o.a) (4 * o.a.width) n) % 2 ^ n)) s

/-- A shift or rotate: the count is b zero-extended from its own width (R202). -/
def shift (f : Nat → Nat → Nat → Nat) (g : Guard) (o : Opnds) (s : State) : Out :=
  scalarR g o.len (fun r =>
    let n := o.n
    r.put o.d (f n (ext o.ty (readSlices r.scalar o.a) (4 * o.a.width) n) (o.b.read r) % 2 ^ n)) s

/-- A count over the bits of a alone (R203). -/
def count (f : Nat → Nat → Nat) (g : Guard) (o : Opnds) (s : State) : Out :=
  scalarR g o.len (fun r => r.put o.d (f (4 * o.a.width) (readSlices r.scalar o.a))) s

/-! ### The operations at width N -/

def addN (n a b : Nat) : Nat := (a + b) % 2 ^ n
def subN (n a b : Nat) : Nat := (a + 2 ^ n - b) % 2 ^ n
def mulN (n a b : Nat) : Nat := a * b % 2 ^ n
/-- The high half of the signed product (Table 11-1). -/
def mulhN (n a b : Nat) : Nat := wrap n (Int.fdiv (sgn a n * sgn b n) (2 ^ n))
def mulhuN (n a b : Nat) : Nat := a * b / 2 ^ n
/-- Signed division (R199). -/
def divN (n a b : Nat) : Nat :=
  if b = 0 then 2 ^ n - 1
  else if sgn a n = -(2 ^ (n - 1)) ∧ sgn b n = -1 then a
  else wrap n (Int.tdiv (sgn a n) (sgn b n))
def remN (n a b : Nat) : Nat :=
  if b = 0 then a
  else if sgn a n = -(2 ^ (n - 1)) ∧ sgn b n = -1 then 0
  else wrap n (Int.tmod (sgn a n) (sgn b n))
def divuN (n a b : Nat) : Nat := if b = 0 then 2 ^ n - 1 else a / b
def remuN (_n a b : Nat) : Nat := if b = 0 then a else a % b
def minN (n a b : Nat) : Nat := if sgn a n ≤ sgn b n then a else b
def maxN (n a b : Nat) : Nat := if sgn a n ≥ sgn b n then a else b
def minuN (_n a b : Nat) : Nat := if a ≤ b then a else b
def maxuN (_n a b : Nat) : Nat := if a ≥ b then a else b
def absN (n a : Nat) : Nat := if sgn a n ≥ 0 then a else subN n 0 a
def negN (n a : Nat) : Nat := subN n 0 a
def andN (_n a b : Nat) : Nat := a &&& b
def orN (_n a b : Nat) : Nat := a ||| b
def xorN (_n a b : Nat) : Nat := a ^^^ b
def notN (n a : Nat) : Nat := 2 ^ n - 1 - a % 2 ^ n
def andnN (n a b : Nat) : Nat := a &&& notN n b
def ornN (n a b : Nat) : Nat := a ||| notN n b
def shlN (n a h : Nat) : Nat := if h < n then (a <<< h) % 2 ^ n else 0
def shrN (n a h : Nat) : Nat := if h < n then a >>> h else 0
def sarN (n a h : Nat) : Nat :=
  if h < n then wrap n (sgn a n / 2 ^ h) else if sgn a n < 0 then 2 ^ n - 1 else 0
def rolN (n a h : Nat) : Nat := ((a <<< (h % n)) ||| (a >>> (n - h % n))) % 2 ^ n
/-- Zero bits above the highest one bit of an m-bit value (R203). -/
def clzN : Nat → Nat → Nat
  | 0, _ => 0
  | m + 1, a => if a.testBit m then 0 else clzN m a + 1
/-- Zero bits below the lowest one bit. -/
def ctzN : Nat → Nat → Nat
  | 0, _ => 0
  | m + 1, a => if a.testBit 0 then 0 else ctzN m (a / 2) + 1
/-- One bits. -/
def popcN : Nat → Nat → Nat
  | 0, _ => 0
  | m + 1, a => a % 2 + popcN m (a / 2)

def execIadd (g : Guard) (o : B3) (s : State) : Out := binary addN g (ofB3 o) s
def execIaddExt (g : Guard) (x : XA) (s : State) : Out := binary addN g (ofXA x) s
def execIsub (g : Guard) (o : B3) (s : State) : Out := binary subN g (ofB3 o) s
def execIsubExt (g : Guard) (x : XA) (s : State) : Out := binary subN g (ofXA x) s
def execImul (g : Guard) (o : B3) (s : State) : Out := binary mulN g (ofB3 o) s
def execImulExt (g : Guard) (x : XA) (s : State) : Out := binary mulN g (ofXA x) s
def execImulh (g : Guard) (o : B3) (s : State) : Out := binary mulhN g (ofB3 o) s
def execImulhExt (g : Guard) (x : XA) (s : State) : Out := binary mulhN g (ofXA x) s
def execImulhu (g : Guard) (o : B3) (s : State) : Out := binary mulhuN g (ofB3 o) s
def execImulhuExt (g : Guard) (x : XA) (s : State) : Out := binary mulhuN g (ofXA x) s
def execIdiv (g : Guard) (o : B3) (s : State) : Out := binary divN g (ofB3 o) s
def execIdivExt (g : Guard) (x : XA) (s : State) : Out := binary divN g (ofXA x) s
def execIdivu (g : Guard) (o : B3) (s : State) : Out := binary divuN g (ofB3 o) s
def execIdivuExt (g : Guard) (x : XA) (s : State) : Out := binary divuN g (ofXA x) s
def execIrem (g : Guard) (o : B3) (s : State) : Out := binary remN g (ofB3 o) s
def execIremExt (g : Guard) (x : XA) (s : State) : Out := binary remN g (ofXA x) s
def execIremu (g : Guard) (o : B3) (s : State) : Out := binary remuN g (ofB3 o) s
def execIremuExt (g : Guard) (x : XA) (s : State) : Out := binary remuN g (ofXA x) s
def execImin (g : Guard) (o : B3) (s : State) : Out := binary minN g (ofB3 o) s
def execIminExt (g : Guard) (x : XA) (s : State) : Out := binary minN g (ofXA x) s
def execImax (g : Guard) (o : B3) (s : State) : Out := binary maxN g (ofB3 o) s
def execImaxExt (g : Guard) (x : XA) (s : State) : Out := binary maxN g (ofXA x) s
def execIminu (g : Guard) (o : B3) (s : State) : Out := binary minuN g (ofB3 o) s
def execIminuExt (g : Guard) (x : XA) (s : State) : Out := binary minuN g (ofXA x) s
def execImaxu (g : Guard) (o : B3) (s : State) : Out := binary maxuN g (ofB3 o) s
def execImaxuExt (g : Guard) (x : XA) (s : State) : Out := binary maxuN g (ofXA x) s
def execIabs (g : Guard) (o : BU) (s : State) : Out := unary absN g (ofBU o) s
def execIabsExt (g : Guard) (x : XA) (s : State) : Out := unary absN g (ofXA x) s
def execIneg (g : Guard) (o : BU) (s : State) : Out := unary negN g (ofBU o) s
def execInegExt (g : Guard) (x : XA) (s : State) : Out := unary negN g (ofXA x) s
def execAnd (g : Guard) (o : B3) (s : State) : Out := binary andN g (ofB3 o) s
def execAndExt (g : Guard) (x : XA) (s : State) : Out := binary andN g (ofXA x) s
def execOr (g : Guard) (o : B3) (s : State) : Out := binary orN g (ofB3 o) s
def execOrExt (g : Guard) (x : XA) (s : State) : Out := binary orN g (ofXA x) s
def execXor (g : Guard) (o : B3) (s : State) : Out := binary xorN g (ofB3 o) s
def execXorExt (g : Guard) (x : XA) (s : State) : Out := binary xorN g (ofXA x) s
def execAndn (g : Guard) (o : B3) (s : State) : Out := binary andnN g (ofB3 o) s
def execAndnExt (g : Guard) (x : XA) (s : State) : Out := binary andnN g (ofXA x) s
def execOrn (g : Guard) (o : B3) (s : State) : Out := binary ornN g (ofB3 o) s
def execOrnExt (g : Guard) (x : XA) (s : State) : Out := binary ornN g (ofXA x) s
def execShl (g : Guard) (o : B3) (s : State) : Out := shift shlN g (ofB3 o) s
def execShlExt (g : Guard) (x : XA) (s : State) : Out := shift shlN g (ofXA x) s
def execShr (g : Guard) (o : B3) (s : State) : Out := shift shrN g (ofB3 o) s
def execShrExt (g : Guard) (x : XA) (s : State) : Out := shift shrN g (ofXA x) s
def execSar (g : Guard) (o : B3) (s : State) : Out := shift sarN g (ofB3 o) s
def execSarExt (g : Guard) (x : XA) (s : State) : Out := shift sarN g (ofXA x) s
def execRol (g : Guard) (o : B3) (s : State) : Out := shift rolN g (ofB3 o) s
def execRolExt (g : Guard) (x : XA) (s : State) : Out := shift rolN g (ofXA x) s
def execClz (g : Guard) (o : BU) (s : State) : Out := count clzN g (ofBU o) s
def execClzExt (g : Guard) (x : XA) (s : State) : Out := count clzN g (ofXA x) s
def execCtz (g : Guard) (o : BU) (s : State) : Out := count ctzN g (ofBU o) s
def execCtzExt (g : Guard) (x : XA) (s : State) : Out := count ctzN g (ofXA x) s
def execPopc (g : Guard) (o : BU) (s : State) : Out := count popcN g (ofBU o) s
def execPopcExt (g : Guard) (x : XA) (s : State) : Out := count popcN g (ofXA x) s

/-! ### Fields, moves and addresses (R204 to R209) -/

/-- The low n bits of a, sign- or zero-extended to d; zero when n = 0 (R204). -/
def extend (signed : Bool) (g : Guard) (o : Opnds) (s : State) : Out :=
  scalarR g o.len (fun r =>
    let n := min (o.b.read r) (4 * o.a.width)
    let v := readSlices r.scalar o.a % 2 ^ n
    r.put o.d (if n = 0 then 0 else if signed then wrap 64 (sgn v n) else v)) s
def execSext (g : Guard) (x : XA) (s : State) : Out := extend true g (ofXA x) s
def execZext (g : Guard) (x : XA) (s : State) : Out := extend false g (ofXA x) s

/-- The extracted field of R205. -/
def field (ty m a p l : Nat) : Nat :=
  if p ≥ m ∨ l = 0 then 0
  else
    let l := min l (m - p)
    let f := (a >>> p) % 2 ^ l
    if ty = 0 then wrap 64 (sgn f l) else f
def execBfx (g : Guard) (x : XA) (s : State) : Out :=
  let o := ofXA x
  scalarR g o.len (fun r =>
    r.put o.d (field o.ty (4 * o.a.width) (readSlices r.scalar o.a) (o.b.read r) (readSlices r.scalar o.c))) s

/-- D with its field replaced (R205). -/
def insert (m d a p l : Nat) : Nat :=
  if p < m ∧ l > 0 then
    let l := min l (m - p)
    (d - ((d >>> p) % 2 ^ l) <<< p) + ((a % 2 ^ l) <<< p)
  else d
def execBfi (g : Guard) (x : XA) (s : State) : Out :=
  let o := ofXA x
  scalarR g o.len (fun r =>
    r.put o.d (insert (4 * o.d.width) (readSlices r.scalar o.d) (readSlices r.scalar o.a) (o.b.read r)
      (readSlices r.scalar o.c))) s

/-- mov: the extension of a at d's width (R206). -/
def move (g : Guard) (o : Opnds) (s : State) : Out :=
  scalarR g o.len (fun r =>
    r.put o.d (ext o.ty (readSlices r.scalar o.a) (4 * o.a.width) (4 * max o.d.width o.a.width))) s
def execMov (g : Guard) (o : BU) (s : State) : Out := move g (ofBU o) s
def execMovExt (g : Guard) (x : XA) (s : State) : Out := move g (ofXA x) s
def execLi (g : Guard) (o : BI) (s : State) : Out :=
  scalarR g 4 (fun r => r.put (win o.d) (ext 0 o.imm.toNat 12 32)) s
def execLiExt (g : Guard) (x : XA) (s : State) : Out :=
  let o := ofXA x
  scalarR g o.len (fun r => r.put o.d (o.b.ext o.ty (4 * max o.d.width o.b.width) r)) s

/-- lea: a plus b extended to 64 bits (R207). -/
def address (g : Guard) (o : Opnds) (s : State) : Out :=
  scalarR g o.len (fun r => r.put o.d ((readSlices r.scalar o.a + o.b.ext o.ty 64 r) % 2 ^ 64)) s
def execLea (g : Guard) (o : B3) (s : State) : Out := address g (ofB3Pair o) s
def execLeaExt (g : Guard) (x : XA) (s : State) : Out := address g (ofXA x) s

/-- sel: A or B by guard c (R208). -/
def execSel (g : Guard) (x : XA) (s : State) : Out :=
  binary (fun _ a b => if s.me.r.g (x.c.start.toNat % 8) then a else b) g (ofXA x) s
def execIaddi (g : Guard) (o : BI) (s : State) : Out :=
  scalarR g 4 (fun r => r.put (win o.d) (readSlices r.scalar (win o.d) + ext 0 o.imm.toNat 12 32)) s

/-! ### Guards (R210 to R212) -/

/-- A compare: the condition and its complement to a guard pair (R210). -/
def compare (c : Cond) (g : Guard) (len ty p q : Nat) (a : Rng) (b : Src) (s : State) : Out :=
  scalarR g len (fun r =>
    let n := 4 * max a.width b.width
    r.setPair p q (c.holds n (ext ty (readSlices r.scalar a) (4 * a.width) n) (b.ext ty n r))) s
def compareB (c : Cond) (g : Guard) (o : BC) (s : State) : Out :=
  compare c g (baseLen o.lit) 0 o.p.toNat o.q.toNat (win o.a) (baseSrc (win o.b) o.lit) s
def compareX (c : Cond) (g : Guard) (x : XA) (s : State) : Out :=
  compare c g (extLen x.lit) x.ty.toNat (x.d.start.toNat % 8) (x.d.start.toNat / 8 % 8) (rngOf x.a) (extSrc x.b x.lit) s
def execIcmpEq (g : Guard) (o : BC) (s : State) : Out := compareB .eq g o s
def execIcmpEqExt (g : Guard) (x : XA) (s : State) : Out := compareX .eq g x s
def execIcmpNe (g : Guard) (o : BC) (s : State) : Out := compareB .ne g o s
def execIcmpNeExt (g : Guard) (x : XA) (s : State) : Out := compareX .ne g x s
def execIcmpLt (g : Guard) (o : BC) (s : State) : Out := compareB .lt g o s
def execIcmpLtExt (g : Guard) (x : XA) (s : State) : Out := compareX .lt g x s
def execIcmpLe (g : Guard) (o : BC) (s : State) : Out := compareB .le g o s
def execIcmpLeExt (g : Guard) (x : XA) (s : State) : Out := compareX .le g x s
def execIcmpLtu (g : Guard) (o : BC) (s : State) : Out := compareB .ltu g o s
def execIcmpLtuExt (g : Guard) (x : XA) (s : State) : Out := compareX .ltu g x s
def execIcmpLeu (g : Guard) (o : BC) (s : State) : Out := compareB .leu g o s
def execIcmpLeuExt (g : Guard) (x : XA) (s : State) : Out := compareX .leu g x s

/-- gop: bit 2 ga + gb of the truth table tt (R211). -/
def execGop (g : Guard) (x : XA) (s : State) : Out :=
  scalarR g 12 (fun r =>
    let i := 2 * (r.g (x.a.start.toNat % 8)).toNat + (r.g (x.b.start.toNat % 8)).toNat
    r.setPair (x.d.start.toNat % 8) (x.d.start.toNat / 8 % 8) (x.c.bits.getLsbD i)) s

/-- The guard byte with bit 7 set (R186, R212). -/
def guardByte (r : Regs) : Nat := (r.guards ||| 0x80).toNat
def execGmov (g : Guard) (x : XA) (s : State) : Out :=
  scalarR g 12 (fun r =>
    if x.d.file = 2 then { r with guards := BitVec.ofNat 8 (readSlices r.scalar (rngOf x.a)) ||| 0x80 }
    else r.put (rngOf x.d) (guardByte r)) s

/-! ### smov, spill and fill (R189 to R191) -/

/-- smov: scalar to one lane, or one lane to scalar (R189). -/
def execSmov (g : Guard) (x : XA) (s : State) : Out :=
  let o := ofXA x
  scalarR g o.len (fun r =>
    let l := o.b.read r % 8
    let n := 4 * max o.d.width o.a.width
    if x.d.file = 1 then r.putLane o.d l (ext o.ty (readSlices r.scalar o.a) (4 * o.a.width) n)
    else r.put o.d (ext o.ty (readLane r.vec l o.a) (4 * o.a.width) n)) s

/-- The slices that spill moves for a range, and TVAL of a range outside the spill store (R191). -/
def spillSize (f : BitVec 2) (r : Rng) : Nat := if f = 1 then 8 * r.width else r.width
def spillTval (b : Nat) : W64 := BitVec.ofNat 64 (0xF * 2 ^ 60 + b % 2 ^ 60)
/-- The value of a range as spill lays it out: lane L's slices at w L upward. -/
def spillValue (f : BitVec 2) (r : Rng) (q : Regs) : Nat :=
  if f = 1 then (List.range 8).foldl (fun v l => v + readLane q.vec l r * 2 ^ (4 * r.width * l)) 0
  else readSlices q.scalar r
def spillWrite (f : BitVec 16384) (p n v : Nat) : BitVec 16384 :=
  let m := BitVec.ofNat 16384 (2 ^ (4 * n) - 1) <<< (4 * p)
  (f &&& ~~~m) ||| (BitVec.ofNat 16384 (v % 2 ^ (4 * n)) <<< (4 * p))
def spillRead (f : BitVec 16384) (p n : Nat) : Nat := (f.toNat >>> (4 * p)) % 2 ^ (4 * n)

def execSpill (g : Guard) (x : XA) (s : State) : Out :=
  scalarI g (extLen x.lit) (fun s =>
    let p := readZ x.b x.lit s
    let n := spillSize x.a.file (rngOf x.a)
    if p + n > 4096 then trap 0x02 (spillTval p) s
    else advance (extLen x.lit)
      (s.modMe fun t => { t with spill := spillWrite t.spill p n (spillValue x.a.file (rngOf x.a) t.r) })) s

/-- The registers with a range filled from the spill store (R191). -/
def fillRegs (f : BitVec 2) (d : Rng) (v : Nat) (q : Regs) : Regs :=
  if f = 1 then q.putLanes d 0xFF (fun l => v >>> (4 * d.width * l)) else q.put d v
def execFill (g : Guard) (x : XA) (s : State) : Out :=
  scalarI g (extLen x.lit) (fun s =>
    let p := readZ x.b x.lit s
    let n := spillSize x.d.file (rngOf x.d)
    if p + n > 4096 then trap 0x02 (spillTval p) s
    else advance (extLen x.lit)
      (s.modMe fun t => { t with r := fillRegs x.d.file (rngOf x.d) (spillRead t.spill p n) t.r })) s

end Sys2Proof.Machine
end

