-- ==== Sys2Proof/Machine/Control.lean ====
section
/-! DEFINITION. Control.lean: nop, branches, calls, returns and rep (R192 to R195, R213 to R216). -/

namespace Sys2Proof.Machine

def execNop (g : Guard) (s : State) : Out := scalarI g 4 (advance 4) s
def execNopExt (g : Guard) (x : XA) (s : State) : Out := scalarI g (extLen x.lit) (advance (extLen x.lit)) s

/-- A transfer that takes effect: the link is written, the repetition ends and the PC moves; a target that R216
refuses raises the address trap and leaves all state unchanged. -/
def transfer (target : W64) (link : Regs → Regs) (s : State) : State :=
  if targetOk target then s.modMe fun t => { t with r := link t.r, repst := 0, pc := target }
  else trap 0x02 target s

/-- The BJ target: the address of word 0 plus four times the offset (R152). -/
def bjTarget (pc : W64) (off : BitVec 18) : W64 := pc + (off.signExtend 64) * 4

def execBr (g : Guard) (off : BitVec 18) (s : State) : Out :=
  scalarI g 4 (fun s => transfer (bjTarget s.me.pc off) id s) s
/-- call links in x31 (R214). -/
def execCall (g : Guard) (off : BitVec 18) (s : State) : Out :=
  scalarI g 4 (fun s => transfer (bjTarget s.me.pc off) (fun r => r.put ⟨496, 16⟩ (s.me.pc + 4).toNat) s) s

/-- The register target of brx, callx and ret (R215). -/
def regTarget (a : Rng) (s : State) : W64 := BitVec.ofNat 64 (readSlices s.me.r.scalar a)
def execBrx (g : Guard) (a : BitVec 6) (s : State) : Out :=
  scalarI g 4 (fun s => transfer (regTarget (pair a) s) id s) s
def execBrxExt (g : Guard) (x : XA) (s : State) : Out :=
  scalarI g 12 (fun s => transfer (regTarget (rngOf x.a) s) id s) s
def execRet (g : Guard) (a : BitVec 6) (s : State) : Out :=
  scalarI g 4 (fun s => transfer (regTarget (pair a) s) id s) s
def execRetExt (g : Guard) (x : XA) (s : State) : Out :=
  scalarI g 12 (fun s => transfer (regTarget (rngOf x.a) s) id s) s
def execCallx (g : Guard) (o : BU) (s : State) : Out :=
  scalarI g 4 (fun s => transfer (regTarget (pair o.a) s) (fun r => r.put (pair o.d) (s.me.pc + 4).toNat) s) s
def execCallxExt (g : Guard) (x : XA) (s : State) : Out :=
  scalarI g 12 (fun s => transfer (regTarget (rngOf x.a) s) (fun r => r.put (rngOf x.d) (s.me.pc + 12).toNat) s) s

/-- rep: starts a repetition, skips the body when the count is zero, or traps (R193). -/
def execRep (g : Guard) (x : XA) (s : State) : Out :=
  scalarI g (extLen x.lit) (fun s =>
    let k := readZ x.b x.lit s
    let len := extLen x.lit
    if k = 0 then
      match s.codeSkip s.cur (x.d.wm1.toNat + 1) (s.me.pc + BitVec.ofNat 64 len) with
      | .ok stop => s.modMe fun t => { t with repst := 0, pc := stop }
      | .error a => if fetchable a then fetchMiss s.cur a s else trap 0x02 a s
    else if k > 4096 then trap 0x0C (BitVec.ofNat 64 k) s
    else advance len (s.modMe fun t => { t with repst := mkRepst (x.d.wm1.toNat + 1) x.d.start k 0 0 })) s

end Sys2Proof.Machine
end

