-- ==== Sys2Proof/Machine/HostMem.lean ====
section
/-! DEFINITION. HostMem.lean: host-inbound accesses through CXL.mem (R40, R56, R75, R445) and bits that flip in memory
(R53). -/

namespace Sys2Proof.Machine

/-- The sender and agent that stands for a host (R75, R141, R406). -/
def hostUnit : Nat := 0x07FFFFFF

/-- The bulkhead that anchors a port (R431). -/
def anchorOf (p : Nat) : Nat := p / 2 * 32 + if p % 2 = 0 then 0 else 23

/-- Whether a port serves CXL.mem and the whole management space: its link is up and boot is done (R439). -/
def portOpen (s : State) (p : Nat) : Bool := (s.po p).up && (s.de (p / 2)).done

/-- The physical address of n bytes at a host offset; `none` for a hole (R40): past the window, masked by HWMASK, not
mappable, or in a bulkhead whose HBM is absent (R396). -/
def hostPa (s : State) (p off n : Nat) : Option Nat :=
  let b := off / 2 ^ 36
  let bh := p / 2 * 32 + b
  if 24 ≤ b ∨ !(s.po p).hwmask.getLsbD b ∨ hbmEnd < off % 2 ^ 36 + n ∨ (s.bu bh).retired then none
  else some (hbmAddr bh (off % 2 ^ 36))

/-- Whether a bulkhead takes no request of a host: it is in reset (R394 step 1), or OFF with its HBM in self-refresh (R442). (log 39, DEDUCED,
DEDUCED) -/
def hostShut (s : State) (bh : Nat) : Bool := (s.bu bh).reset || (s.bu bh).pwrSt == 2

/-- The host as an agent towards a bulkhead: its path is bit 5 of Table 05-1. -/
def hostAgent (s : State) (bh : Nat) : Agent := { unit := hostUnit, bh := bh, part := s.partOf bh, priv := false, path := 5 }

/-- What a host read of resident memory completes with, under Table 03-9: NEGLIGIBLE is counted, BOUNDED is recorded in
the bulkhead's log, GRAVE and STRUCTURAL are CXL poison. (log 39, DEDUCED) -/
def hostReadNow (p pa n : Nat) (s : State) : State :=
  let bh := bhOfPa pa
  let o := readPiece (hostAgent s bh) { va := pa, pa := pa, n := n } { st := s }
  let s := o.st
  let s := if !o.neg.isEmpty then s.modBu bh fun b => { b with negligible := b.negligible + 1 } else s
  let s := if o.bnd.isSome then logTo bh { addr := BitVec.ofNat 64 pa, peer := BitVec.ofNat 32 hostUnit, cause := 4, phys := true } s
    else s
  if 3 ≤ o.sev then s.modPo p fun q => { q with resp := [], respPoison := true }
  else s.modPo p fun q => { q with resp := o.bytes, respPoison := false }

/-- A host read that ends with poison. (log 39, DEDUCED) -/
def hostReadPoison (p : Nat) (nres : Bool) (s : State) : State :=
  s.modPo p fun q => { q with resp := [], respPoison := true, nres := q.nres || nres }

/-- The held host reads of frames that are resident again proceed (R76 step 4). -/
def releaseHostReads (s : State) : State :=
  s.flight.foldl (fun s e => match e.2 with
    | .hostRead p pa n => if heldPiece s { va := pa, pa := pa, n := n } then s else hostReadNow p pa n (s.endFl e.1)
    | _ => s) s

/-- A held host read at the end of its 50 us (R75). -/
def hostReadTimeout (id p pa n : Nat) (s : State) : State :=
  if heldPiece s { va := pa, pa := pa, n := n } then hostReadPoison p true (s.endFl id) else hostReadNow p pa n (s.endFl id)

/-- CXL_MEM_READ: n bytes at a host offset of a port. (log 39, DEDUCED) -/
def execCxlMemRead (p off n : Nat) (s : State) : Out :=
  .next (if !portOpen s p then s
  else match hostPa s p off n with
    | none => hostReadPoison p false s
    | some pa => if hostShut s (bhOfPa pa) then hostReadPoison p false s else if heldPiece s { va := pa, pa := pa, n := n } then s.emit (.hostRead p pa n) else hostReadNow p pa n s)

/-- CXL_MEM_WRITE: bytes at a host offset of a port; a hole discards them, and so does a full bounce buffer. -/
def execCxlMemWrite (p off : Nat) (data : List Byte) (s : State) : Out :=
  .next (if !portOpen s p then s
  else match hostPa s p off data.length with
    | none => s.modPo p fun q => { q with hole := true }
    | some pa =>
      let bh := bhOfPa pa
      if hostShut s bh then s
      else match writePiece (hostAgent s bh) { va := pa, pa := pa, n := data.length } data s with
      | (s, .bounceFull a) =>
        logTo bh { addr := BitVec.ofNat 64 a, peer := BitVec.ofNat 32 hostUnit, cause := 3, phys := true }
          (s.modPo p fun q => { q with bnc := true })
      | (s, _) => s)

/-- Bits of an elided line's metadata flip: its DSC corrects up to two symbols of each half; beyond that the line is poisoned at
STRUCTURAL severity (R52). (log 61, DESIGN CHOICE) -/
def metadataError (sector : Nat) (data : BitVec 512) (check : BitVec 64) (s : State) : State :=
  if (judge 0 false data check).sev.any (3 ≤ ·) then
    { setPoison sector true s with elided := s.elided.filter (· != sector), lostMeta := sector :: s.lostMeta.filter (· != sector) }
  else s

/-- Where a controller keeps its migration table: HBM offset 0xB_2D05_0000, entry i at 16 i of it (R33). (log 78, PRESUMED) -/
def migTableAt (bh : Nat) : Nat := hbmAddr bh 0xB2D050000
/-- Bits of a sector of a migration table flip: an entry of which an element is beyond correction is lost (R53, Table 03-7). (log 78, PRESUMED,
PRESUMED) -/
def migTableError (bh : Nat) (k : Nat) (data : BitVec 512) (check : BitVec 64) (s : State) : State :=
  let sev := (judge 0 false data check).sev
  (List.range 4).foldl (fun s j =>
    if ((sev.drop (16 * j)).take 16).any (3 ≤ ·) then
      s.modBu bh fun b => { b with migBad := (4 * k + j) :: b.migBad.filter (· != 4 * k + j) }
    else s) s

/-- MEMORY_BIT_ERROR: stored bits of a sector, data and check bits, flip (R53); of an elided line they are its metadata.
`sector` is the physical address / 64. (log 78, PRESUMED) -/
def execMemoryBitError (sector : Nat) (data : BitVec 512) (check : BitVec 64) (s : State) : Out :=
  .next (let pa := 64 * sector
  let tab := migTableAt (bhOfPa pa)
  if !isSp pa ∧ tab ≤ pa ∧ pa < tab + 1024 ∧ paOk (hbmAddr (bhOfPa pa) 0) then
    migTableError (bhOfPa pa) ((pa - tab) / 64) data check s
  else if !paOk pa then s
  else if s.elided.contains sector then metadataError sector data check s
  else
    let old := Map.get (0, 0) s.flips sector
    let f := (old.1 ^^^ data, old.2 ^^^ check)
    { s with flips := if f.1 = 0 ∧ f.2 = 0 then Map.del s.flips sector else Map.set s.flips sector f })

end Sys2Proof.Machine
end

