-- ==== Sys2Proof/Machine/Walk.lean ====
section
/-! DEFINITION. Walk.lean: the tenant page tables (R58 to R63), reads of tenant memory through them, and the rewriting of
protected sectors (R47, R79). -/

namespace Sys2Proof.Machine

/-- Bits h to l of a number. -/
def fld (v h l : Nat) : Nat := (v >>> l) % 2 ^ (h - l + 1)

/-- What a walk of the page tables finds. -/
inductive Walked where
  /-- a resident leaf, its level, and the address of its entry -/
  | leaf (e : W128) (lvl : Nat) (entry : Nat)
  /-- P = 0 -/
  | absent
  /-- V = 0 -/
  | unmapped
  | malformed (entry : Nat)
  /-- the gate refused a table read, or its bulkhead is dead -/
  | refused (entry : Nat)
  | dead (entry : Nat)
  /-- a table lies in a withdrawn frame of another bulkhead, or a Weevil reads it: the read is held there (R75) -/
  | held (entry : Nat)
  deriving DecidableEq, Repr

/-! ### Entries (Table 04-2) -/

def pteAddr (e : W128) : Nat := (e.extractLsb' 9 43).toNat * 512
def pteTenant (e : W128) : Nat := (e.extractLsb' 101 15).toNat
def pteLayout (e : W128) : Nat := (e.extractLsb' 120 8).toNat
def pteOrd (e : W128) : Nat := (e.extractLsb' 118 2).toNat
def pteTM (e : W128) : Bool := e.getLsbD 117
def pteZE (e : W128) : Bool := e.getLsbD 116
def pteR (e : W128) : Bool := e.getLsbD 3
def pteW (e : W128) : Bool := e.getLsbD 4
def pteA (e : W128) : Bool := e.getLsbD 5
/-- The index of a virtual address at a level. -/
def lvlIndex (l va : Nat) : Nat := match l with
  | 0 => va / 2 ^ 16 % 32
  | 1 => va / 2 ^ 21 % 512
  | 2 => va / 2 ^ 30 % 512
  | _ => va / 2 ^ 39 % 512
/-- The bytes of a table at a level. -/
def tableSize (l : Nat) : Nat := if l = 0 then 512 else 8192

/-- A non-leaf entry that R62 lets pass, at the level whose table it names. -/
def nonLeafOk (e : W128) (next : Nat) : Bool :=
  e.toNat / 2 ^ 52 == 0 && e.extractLsb' 6 3 == 0 && e.extractLsb' 3 3 == 0 && pteAddr e % tableSize next == 0 &&
    !isSp (pteAddr e) && paOk (pteAddr e) && paOk (pteAddr e + tableSize next - 1)

/-- A leaf that passes the conditions of R62 that the walker judges. (log 66, DEDUCED) -/
def leafOk (e : W128) (lvl : Nat) : Bool :=
  let a := pteAddr e
  e.extractLsb' 52 49 == 0 && e.extractLsb' 6 3 == 0 && (pteR e || pteW e || pteA e) && a % lvlSize lvl == 0 &&
    (if isSp a then lvl == 0 && pteLayout e == 0 && !pteTM e && !pteZE e && paOk a && spOff a < 0x60000
     else layoutOk (pteLayout e) && paOk a && paOk (a + lvlSize lvl - 1))

/-- The frame attribute record of an HBM frame (R445). (log 31, DEDUCED) -/
def frameRecord (s : State) (pa : Nat) : Nat :=
  let b := bhOfPa pa
  s.rawNat (hbmAddr b ((s.bu b).attrBase.toNat % 2 ^ 36 + 2 * (pa % 2 ^ 36 / 65536))) 2

/-- The TENANT comparison, and for an HBM leaf the attribute comparison, made where the frame lies (R62); a leaf of level 1 or 2
is compared with the record of its first frame. (log 81, DESIGN CHOICE) -/
def tenantOk (s : State) (e : W128) : Bool :=
  let a := pteAddr e
  s.partOf? (bhOfPa a) == some (pteTenant e) &&
    (isSp a || (let r := frameRecord s a
                r % 256 == pteLayout e && r.testBit 8 == pteTM e && r.testBit 9 == pteZE e))

/-! ### The walk -/

/-- What a table read gives. -/
inductive TableRead where
  | got (e : W128)
  | held
  | fails (r : Result)
  deriving DecidableEq, Repr

/-- Whether a table read is on a path of R75 that a withdrawn frame holds: a Weevil's, or one from another bulkhead. -/
def heldPath (g : Agent) (pa : Nat) : Bool := g.path == 3 || g.bh != bhOfPa pa

/-- One 16-byte table read by a sequencer or Weevil, as any remote read of its partition (R63, R75, R85). A sequencer's read of a
withdrawn frame of its own bulkhead, which R75 does not hold, finds the entry not resident. (log 80, DESIGN CHOICE) -/
def tableRead (s : State) (g : Agent) (pa : Nat) : TableRead :=
  match reach s g { va := 0, pa := pa, n := 16 } .r with
  | .ok =>
    let h := homeOf s pa
    if (frameSt s (goesTo s pa)).isSome then (if heldPath g pa then .held else .fails (.notResident pa))
    else .got (BitVec.ofNat 128 (leNat (readLine s h 16).1))
  | .refused _ => .fails (.refused pa)
  | .deadPeer _ => .fails (.deadPeer pa)
  | e => .fails e

/-- The walk from an entry address, with the entries read; `lvl` is the level of the table that holds the entry, 4 for the root
array. An entry with V = 0 is no mapping whatever else it holds; one that is malformed is so before P is looked at, and the
TENANT and attributes of a leaf with P = 0 are not compared (R62). (log 66, DEDUCED) -/
def walkTrail (s : State) (g : Agent) (va : Nat) : Nat → Nat → Walked × List Nat
  | lvl, ea =>
    match tableRead s g ea with
    | .fails (.refused _) => (.refused ea, [])
    | .fails (.deadPeer _) => (.dead ea, [])
    | .fails _ => (.absent, [])
    | .held => (.held ea, [])
    | .got e =>
      if !e.getLsbD 0 then (.unmapped, [ea])
      else if e.getLsbD 1 then
        (if lvl ≥ 3 ∨ !leafOk e lvl then .malformed ea else if e.getLsbD 2 then .leaf e lvl ea else .absent, [ea])
      else match lvl with
        | 0 => (.malformed ea, [ea])
        | l + 1 =>
          if !nonLeafOk e l then (.malformed ea, [ea])
          else if !e.getLsbD 2 then (.absent, [ea])
          else let r := walkTrail s g va l (pteAddr e + 16 * lvlIndex l va)
               (r.1, ea :: r.2)
/-- What the walk finds. -/
def walkFrom (s : State) (g : Agent) (va lvl ea : Nat) : Walked := (walkTrail s g va lvl ea).1

/-- Whether an address may be mapped at all, and its entry in the root array that PROOT of bulkhead `root` names (R59). -/
def walkable (va : Nat) : Bool :=
  let w := va / 2 ^ 60
  3 ≤ w && w ≤ 0xD && va / 2 ^ 48 % 2 ^ 12 == 0
def rootEntry (s : State) (root va : Nat) : Nat := ((s.bu root).proot.extractLsb' 4 48).toNat * 16 + 16 * (va / 2 ^ 60 - 3)

/-- The walk of a virtual address from the root array that PROOT of bulkhead `root` names (R59). -/
def walkAt (s : State) (root : Nat) (g : Agent) (va : Nat) : Walked :=
  if walkable va then walkFrom s g va 4 (rootEntry s root va) else .unmapped

/-- What the reads of a walk leave at the tables' controllers: the volume of remote ones, the cached lines, and watch hits; a table of
another bulkhead is read by its fabric inbound path (R42, R83, R337, R406). -/
def walkReads (s : State) (root : Nat) (g : Agent) (va : Nat) : State :=
  if walkable va then
    (walkTrail s g va 4 (rootEntry s root va)).2.foldl (fun s ea =>
      let g := { g with path := if g.bh = bhOfPa ea then g.path else 4 }
      let (s, h) := lineHome (remoteAdd g { va := 0, pa := ea, n := 16 } s) ea
      let s := crossing g false 1 ea (readLine s h 16).1 s
      cacheLine h false (countFix h (readLine s h 16).2.2 (watchHit g true false h 16 [] s))) s
  else s
/-- The walk for an agent in its own bulkhead. -/
def walkTables (s : State) (g : Agent) (va : Nat) : Walked := walkAt s g.bh g va

/-- The translation cache of a cluster's sequencer (R63): a cached leaf that maps the address. (log 35, DESIGN CHOICE) -/
def tlbFind (c : Cluster) (va : Nat) : Option (W128 × Nat × Nat) :=
  (c.tlb.find? fun e => va / lvlSize e.2.1 == e.1).map fun e => (e.2.2.1, e.2.1, e.2.2.2)

/-- A cluster's sequencer as an agent. -/
def seqAgent (s : State) (cl : Nat) (priv : Bool) : Agent :=
  { unit := cl * 1024, bh := bhOfClu cl, part := s.partOf (bhOfClu cl), priv := priv }

/-- A walk by a cluster's sequencer, through its translation cache. (log 35, DESIGN CHOICE) (log 66, DEDUCED) -/
def walkSeq (s : State) (cl : Nat) (priv : Bool) (va : Nat) : State × Walked :=
  match tlbFind (s.cl cl) va with
  | some (e, lvl, entry) => (s, .leaf e lvl entry)
  | none =>
    let g := seqAgent s cl priv
    let w := walkTables s g va
    let s := walkReads s g.bh g va
    match w with
    | .leaf e lvl entry => (s.modCl cl fun c => { c with tlb := (va / lvlSize lvl, lvl, e, entry) :: c.tlb }, w)
    | _ => (s, w)

/-- The fragment of a leaf (Table 04-4); a scratchpad leaf takes layout and TM from the lower of the two banks that it maps
(R61). (log 67, DESIGN CHOICE) -/
def leafFrag (s : State) (e : W128) (lvl : Nat) : W64 :=
  let a := pteAddr e
  let sp := isSp a
  let f := s.bfmt (spCore a) (spOff a / 0x8000)
  let lay : Byte := if sp then f.extractLsb' 0 8 else BitVec.ofNat 8 (pteLayout e)
  let tm := if sp then f.getLsbD 10 else pteTM e
  BitVec.ofNat 64 (a / 65536 * 65536 + lay.toNat * 256 + pteOrd e * 64 + tm.toNat * 32 + (pteZE e).toNat * 16 + lvl * 4 +
    (pteW e).toNat * 2 + 1)

/-- The physical address that a leaf gives. -/
def leafPa (e : W128) (lvl va : Nat) : Nat := pteAddr e + va % lvlSize lvl

/-- Bytes of tenant memory read through the page tables, as privileged code reads memory, checked against no extent
(R444), and what the reads leave (R83, R337); `none` where any byte is unmapped, not resident, lacks leaf R or is refused. The
fuel is the pages touched. -/
def readVirt (g : Agent) : Nat → Nat → Nat → State → State × Option (List Byte)
  | 0, _, _, s => (s, some [])
  | f + 1, va, n, s =>
    if n = 0 then (s, some [])
    else
      let m := min n (65536 - va % 65536)
      let w := walkTables s g va
      let s := walkReads s g.bh g va
      match w with
      | .leaf e lvl _ =>
        let p : Piece := { va := va, pa := leafPa e lvl va, n := m, lvl := lvl }
        if !pteR e || !tenantOk s e || reach s g p .r != .ok then (s, none)
        else
          let o := readPiece g p { st := remoteAdd g p s }
          let o := { o with st := crossing g false p.ord p.pa o.bytes o.st }
          if o.held then (o.st, none)
          else
            let (s, r) := readVirt g f (va + m) (n - m) o.st
            (s, r.map fun bs => o.bytes ++ bs)
      | _ => (s, none)

/-! ### Rewriting protected sectors (R47) -/

/-- One sector with bit errors, corrected under an old layout and TM and encoded anew: uncorrectable, it becomes poisoned;
otherwise it keeps its stored bits and reads clean. -/
def recodeSector (sec l : Nat) (tm : Bool) (d : BitVec 512) (c : BitVec 64) (s : State) : State :=
  let j := judge l tm d c
  let worst := j.sev.foldl max 0
  let bh := bhOfPa (sec * 64)
  let bad := s.poison.contains sec || 3 ≤ worst
  let lost := s.lostMeta
  let bytes := (Memory.rds s.mem (sec * 64) 64).zipIdx.map fun e => e.1 ^^^ j.flips.extractLsb' (8 * e.2) 8
  let s := countFix (sec * 64) j.corrected { setPoison sec bad (s.rawWrite (sec * 64) bytes) with lostMeta := lost }
  if bad then s
  else if worst = 2 then
    logTo bh { addr := BitVec.ofNat 64 (sec * 64), cause := 4, phys := true,
               peer := BitVec.ofNat 32 (unitOfPa (sec * 64)) } s
  else if worst = 1 then s.modBu bh fun b => { b with negligible := b.negligible + 1 }
  else s

/-- Every sector with bit errors from `pa` on for `n` bytes, read under an old layout and TM. -/
def recodeRange (pa n l : Nat) (tm : Bool) (s : State) : State :=
  (s.flips.filter fun e => pa / 64 ≤ e.1 && e.1 * 64 < pa + n).foldl
    (fun s e => recodeSector e.1 l tm e.2.1 e.2.2 s) s

/-- A BFMT takes its new value, its bank rewritten where LAYOUT, SWZ or TM changes (R47). -/
def setBfmt (core bank : Nat) (v : W64) (s : State) : State :=
  let old := s.bfmt core bank
  let s := if old.extractLsb' 0 11 = v.extractLsb' 0 11 then s
    else recodeRange (spAddr core (0x8000 * bank)) 0x8000 (old.extractLsb' 0 8).toNat (old.getLsbD 10) s
  s.modCo core fun k => { k with bfmt := Map.set k.bfmt bank v }

end Sys2Proof.Machine
end

