-- ==== Sys2Proof/Machine/Memory.lean ====
section
/-! DEFINITION. Memory.lean: loads and stores (R221 to R227), the commit window and its drains (R100, R101, R107, R108,
R383), atomics at the core (R228, R229), fence, wait, commit, cvta, pf and cwb (R235 to R240), done (R217), and the
arrival of data and acknowledgements. -/

namespace Sys2Proof.Machine

/-! ### Fields of the class (R221, R222) -/

/-- The effective address (R221). -/
def effAddr (r : Regs) (x : XM) : Nat :=
  (readSlices r.scalar (rngOf x.a) + ext 0 x.off.toNat 12 64) % 2 ^ 64
/-- The access size of a value of w slices (R222). -/
def sizeOf (w : Nat) : Nat := if w ≤ 2 then 1 else if w ≤ 4 then 2 else if w ≤ 8 then 4 else 8
def memLen (x : XM) : Nat := extLen x.lit
def xmAcq (x : XM) : Bool := x.ord == 1 || x.ord == 3
def xmRel (x : XM) : Bool := x.ord == 2 || x.ord == 3
/-- Effective acquire and release of an access by its class (Table 05-3). -/
def effAcq (cls : Nat) (f : Bool) : Bool := cls == 0 || (cls != 2 && f)
/-! ### The commit window -/

/-- The lines that held stores touch. -/
def heldLines (hs : List Held) : List Nat :=
  (hs.flatMap fun h => (List.range ((h.pa + h.bytes.length - 1) / 64 + 1 - h.pa / 64)).map (h.pa / 64 + ·)).eraseDups
/-- The room a commit window uses (R383). -/
def windowUse (a : Act) (more : List Held) (msgs : Nat) : Nat :=
  80 * (heldLines (a.held ++ more)).length + 16 * (a.msgs.length + msgs)
def windowFits (a : Act) (more : List Held) (msgs : Nat) : Bool := windowUse a more msgs ≤ 16384

/-- The bytes of a range with the thread set's own held stores laid over, the youngest last (R96). -/
def overlay (hs : List Held) (pa : Nat) (bs : List Byte) : List Byte :=
  hs.foldl (fun bs h => bs.zipIdx.map fun e =>
    if h.pa ≤ pa + e.2 ∧ pa + e.2 < h.pa + h.bytes.length then h.bytes.getD (pa + e.2 - h.pa) 0 else e.1) bs
def overlayPieces (hs : List Held) : List Piece → List Byte → List Byte
  | [], bs => bs
  | p :: ps, bs => overlay hs p.pa (bs.take p.n) ++ overlayPieces hs ps (bs.drop p.n)

/-! ### Performing -/

/-- The agent of a request as its target sees it: its thread set, its reactor, the path and its privilege. -/
def farAgent (s : State) (u r path : Nat) (priv : Bool) : Agent :=
  { unit := u, bh := bhOf u, part := s.partOf (bhOf u), priv := priv, path := path, reactor := some r }

/-- Performs a store that has reached its target: the gate's judgement, then the bytes. -/
def performStore (g : Agent) (p : Piece) (bs : List Byte) (s : State) : State × Result :=
  match reach s g p .w with
  | .ok => writePiece g p bs (remoteAdd g p s)
  | e => (s, e)

/-- Performs the reads of one lane. -/
def performLane (g : Agent) (k : Right) (lane : Nat) (ps : List Piece) (s : State) : State × Got :=
  match (ps.map fun p => reach s g p k).find? (· != .ok) with
  | some e => (s, { lane := lane, res := e })
  | none =>
    let o := readPieces g ps (ps.foldl (fun s p => remoteAdd g p s) s)
    (o.st, { lane := lane, bytes := o.bytes, neg := o.neg, bnd := o.bnd,
             res := if o.sev = 4 then .structural o.at3 else if o.sev = 3 then .grave o.at3 else .ok })

/-- What a core's read reports of bits that it delivers: NEGLIGIBLE counts at each bulkhead that gave them, BOUNDED writes a
record (Table 03-9, R227). -/
def noteRead (r : Nat) (tag : W64 × W32) (neg : List Nat) (bnd : Option (Nat × Nat)) (s : State) : State :=
  let s := neg.foldl (fun s b => s.modBu b fun b => { b with negligible := b.negligible + 1 }) s
  match bnd with
  | none => s
  | some (va, unit) => errorTo r
      { addr := BitVec.ofNat 64 va, tagt := tag.1, tagm := tag.2, peer := BitVec.ofNat 32 unit, cause := 4 } s

/-- The new memory value of an atomic (Table 12-4), at S bytes; `none` where a compare fails. -/
def Atomic.apply (a : Atomic) (m : Nat) : Option Nat :=
  let n := 8 * a.size
  let b := a.b.toNat % 2 ^ n
  if a.cas then (if m = a.e.toNat % 2 ^ n then some b else none)
  else some (match a.op with
    | 0 => (m + b) % 2 ^ n
    | 1 => m &&& b
    | 2 => m ||| b
    | 3 => m ^^^ b
    | 4 => if a.signed then minN n m b else min m b
    | 5 => if a.signed then maxN n m b else max m b
    | _ => b)
where
  minN (n a b : Nat) : Nat := if sgn a n ≤ sgn b n then a else b
  maxN (n a b : Nat) : Nat := if sgn a n ≥ sgn b n then a else b

/-- Reads a piece and, where `f` gives bytes, writes them there, as one access (R111, R406); what it writes belongs to the post-commit
range of its activation. -/
def readWrite (g : Agent) (gen : Nat) (p : Piece) (f : List Byte → Option (List Byte)) (s : State) : State × Got :=
  let (s, got) := performLane { g with whole := true } .a 0 [p] s
  if got.res = .ok then
    let new := f got.bytes
    let s := watchHit g true new.isSome (lineHome s p.pa).2 p.n (new.getD []) s
    (match new with
     | some bs => addRangeOf g.unit gen p.pa p.n (writePiece { g with whole := true } p bs s).1
     | none => s, got)
  else (s, got)
/-- Performs an atomic in one piece at its target (R111). -/
def performAtomic (g : Agent) (gen : Nat) (a : Atomic) (p : Piece) (s : State) : State × Got :=
  readWrite g gen p (fun bs => (a.apply (leNat bs)).map (leBytes a.size)) s

/-- Performs every lane of a load in order. -/
def performLanes (g : Agent) (k : Right) (ls : List (Nat × List Piece)) (s : State) : State × List Got :=
  ls.foldl (fun a l => let (s, got) := performLane g k l.1 l.2 a.1; (s, a.2 ++ [got])) (s, [])

/-- Whether every piece lies in the issuer's own bulkhead. (log 57, DESIGN CHOICE) -/
def isNear (u : Nat) (ps : List Piece) : Bool := ps.all fun p => bhOfPa p.pa == bhOf u

/-! ### Misses and stalls -/

def Right.code : Right → BitVec 2
  | .r => 1
  | .w => 2
  | .a => 3

/-- A miss of the late translation table by an access to `ea`, of a lane where it has one: the thread set stalls while the
sequencer walks (R71). -/
def lateMiss (ea : Nat) (lane : Option Nat) (va xi : Nat) (k : Right) (s : State) : State :=
  (countEv s.cur 0x0A 1 (s.modMe fun t =>
    { t with mode := .parked s.nextId, miss := (BitVec.ofNat 64 ea, lane) })).emit (.walk (.lateMiss s.cur va xi k.code) false)

/-- What an access to `ea` does that its checks stop (R164, R71). -/
def badAccess (ea : Nat) (b : Bad) (s : State) : State :=
  match b with
  | .trap c v => trap c (BitVec.ofNat 64 v) s
  | .miss va xi k => if s.loading s.cur then s else lateMiss ea none va xi k s

/-- Waits without effect for a cause of Table 21-9. (log 52, DESIGN CHOICE) -/
def waits (cause : Nat) (s : State) : State := stall s.cur cause 1 s

/-- An instruction that uses a counter waits while it stands at 255 (R187). -/
def counted (n : Nat) (body : State → State) (s : State) : State := if s.me.c n = 255 then waits 10 s else body s

/-! ### Drains (R101, R108) -/

/-- The agent of a store on its way. -/
def StoreReq.agent (q : StoreReq) (s : State) (path : Nat) : Agent := farAgent s q.ts q.reactor path q.priv

/-- A store goes on its way: inside the own bulkhead it is performed at once, unless an earlier request keeps it back; elsewhere
its target's gate performs it. What is performed at once in the own core's scratchpad needs no acknowledgement. (log 57, DESIGN
CHOICE) -/
def putStore (q : StoreReq) (s : State) : State :=
  if bhOfPa q.p.pa = bhOf q.ts ∧ !blocked s s.nextId q.req then
    let (s, r) := performStore (q.agent s 0) q.p q.bytes s
    if isSp q.p.pa && spCore q.p.pa == coreOf q.ts then s else s.emit (.store { q with performed := true, res := r })
  else s.emit (.store q)

/-- The store that a held one becomes. -/
def heldReq (s : State) (u : Nat) (h : Held) : StoreReq :=
  let a := s.act u
  { ts := u, gen := (s.th u).gen, reactor := a.reactor, tag := a.q.tag, rel := h.rel, wide := h.wide, scope := h.scope, epoch := h.epoch
    priv := a.priv, bytes := h.bytes, p := { va := h.va, pa := h.pa, n := h.bytes.length, ord := h.ord, lvl := h.lvl } }

/-- Sends one held store on its way. (log 106, DESIGN CHOICE) -/
def drainOne (u : Nat) (h : Held) (s : State) : State := putStore (heldReq s u h) (addRange u h.pa h.bytes.length s)

/-- Begins a drain of the issuing thread set's window: for done when `fin`, else as a commit. A drain is a release of every
access before it: it begins once each has been acknowledged (R101, R107). (log 65, DEDUCED) -/
def startDrain (fin : Bool) (s : State) : State :=
  if !allAcked s s.cur then s
  else
    let u := s.cur
    let hs := (s.act u).held
    let s := s.modAct u fun a => { a with held := [], restartable := false }
    let s := hs.foldl (fun s h => drainOne u h s) s
    s.modMe fun t => { t with mode := .drain fin }

/-- A drain that counts the cycles that it waits (R404). -/
def drainNow (fin : Bool) (s : State) : State := if allAcked s s.cur then startDrain fin s else waits 12 s

/-- An action beyond the activation: in a restartable activation the thread set first performs commit and then issues the
instruction again (R224, R245, R340). -/
def committed (body : State → State) (s : State) : State :=
  if s.me.act.isSome && (s.act s.cur).restartable then drainNow false s else body s

/-! ### The context aperture (R29, R30) -/

/-- A thread set's context frame as 4 KiB of bytes (Table 02-3), from offset o. -/
def frameNat (t : Thread) : Nat :=
  t.r.scalar.toNat + t.r.vec.toNat * 2 ^ (8 * 0x100) + (t.r.guards ||| 0x80).toNat * 2 ^ (8 * 0x500) +
    (t.r.masks ||| 0xFF00000000000000).toNat * 2 ^ (8 * 0x508) + t.ctr.toNat * 2 ^ (8 * 0x510) +
    t.pc.toNat * 2 ^ (8 * 0x518) + t.r.fpctl.toNat * 2 ^ (8 * 0x520) + t.arp.toNat * 2 ^ (8 * 0x528) +
    t.tcause.toNat * 2 ^ (8 * 0x530) + t.tval.toNat * 2 ^ (8 * 0x538) + t.tepc.toNat * 2 ^ (8 * 0x540) +
    t.tstat.toNat * 2 ^ (8 * 0x548)
def frameRead (t : Thread) (o n : Nat) : Nat := (frameNat t >>> (8 * o)) % 2 ^ (8 * n)

/-- One aperture write of n bytes (Table 02-3): the frame with the bytes in place, taken back field by field; bits [1:0] of the
PC stay zero (R147). (log 103, DESIGN CHOICE) -/
def frameWrite (t : Thread) (o n v : Nat) : Thread :=
  let f := frameNat t
  let f := f - ((f >>> (8 * o)) % 2 ^ (8 * n)) * 2 ^ (8 * o) + (v % 2 ^ (8 * n)) * 2 ^ (8 * o)
  let get (off bits : Nat) : Nat := (f >>> (8 * off)) % 2 ^ bits
  let pc := BitVec.ofNat 64 (get 0x518 64) &&& ~~~3
  { t with
    r := { scalar := BitVec.ofNat 2048 (get 0 2048), vec := BitVec.ofNat 8192 (get 0x100 8192),
           guards := BitVec.ofNat 8 (get 0x500 8) ||| 0x80,
           masks := BitVec.ofNat 64 (get 0x508 64) ||| 0xFF00000000000000,
           fpctl := BitVec.ofNat 64 (get 0x520 64) &&& 0x31F }
    ctr := BitVec.ofNat 64 (get 0x510 64)
    pc := pc
    tepc := pc
    bar := if pc = t.pc then t.bar else none
    left := if pc = t.pc then t.left else t.bar.toList ++ t.left }

/-- Judges an ld or st that names the aperture: only a naturally aligned one reaches it, and of those only a privileged one at a
frozen thread set goes ahead, `none` (R30). -/
def frameBad (s : State) (core ts ea n : Nat) : Option Nat :=
  if ea % n ≠ 0 then some 0x02
  else if !(s.act s.cur).priv then some 0x04
  else if (s.th (core * 4 + ts)).mode ≠ .frozen then some 0x02
  else none

/-! ### Loads -/

/-- Where the issuing thread set stands, for an older load's trap to go back to (R185). -/
def spotOf (t : Thread) : Spot := { pc := t.pc, repst := t.repst, blk := t.blk, hist := t.hist }

/-- Whether a read or atomic of pieces may be performed at issue: all in the own bulkhead, none held at a withdrawn frame, and no
earlier request keeps it back. (log 57, DESIGN CHOICE) -/
def atOnce (s : State) (u : Nat) (ps : List Piece) (rel : Bool) : Bool :=
  isNear u ps && !ps.any (heldPiece s) && !blocked s s.nextId { ts := u, ps := ps, rel := rel, wide := false }

/-- Puts a load in flight (R184, R223): performed at once where it may be, else at the gates. (log 57, DESIGN CHOICE) -/
def issueLoad (x : XM) (d : Dest) (acq : Bool) (s : State) : State :=
  let u := s.cur
  let ps := d.lanes.flatMap (·.2)
  let s := useLate u .r ps s
  let snap := s.me.r
  let spot := spotOf s.me
  let near := atOnce s u ps false
  let (s, got) := if near then performLanes (s.agent u 0) .r d.lanes s else (s, [])
  let s := s.emit (.load u x.ctr.toNat { d with scope := x.scope.toNat } none acq false snap spot (if near then some got else none))
  advance (memLen x) (s.incC u x.ctr.toNat)

/-- The cycles beyond the first that an access's lanes take in one subbank of a scratchpad (R43, R44, R404). -/
def laneConflict (s : State) (ps : List Piece) : Nat :=
  let chunks := (ps.filter fun p => isSp p.pa).flatMap fun p =>
    (List.range ((p.pa + p.n - 1) / 16 + 1 - p.pa / 16)).map (p.pa / 16 + ·)
  let keys := chunks.eraseDups.map fun c =>
    let off := spOff (c * 16)
    let core := spCore (c * 16)
    let sub := match ((s.bfmt core (off / 0x8000)).extractLsb' 8 2).toNat with
      | 1 => (off / 16 % 8) ^^^ (off / 128 % 8)
      | 2 => (off / 16 % 8) ^^^ (off / 256 % 8)
      | _ => off / 16 % 8
    (core, off / 0x8000, sub)
  (keys.map fun k => (keys.filter (· == k)).length).foldl max 1 - 1

/-- Whether an access waits as a release: at an SO page, or with release order at cluster scope or wider, for every earlier access that
is on its way (R90, R107). -/
def relWaits (s : State) (x : XM) (ps : List Piece) (rel : Bool) : Bool :=
  ps.any (fun p => p.ord == 0 || (p.ord != 2 && rel && wideScope x.scope.toNat s.cur)) && !allAcked s s.cur
/-- What an access waits for: at an SO page, or with release order at cluster scope or wider, every earlier access that is on its way
(R90, R107); at a DV page, older loads (R185). Stores that the commit window still holds (R100) are not waited for, whatever their class
and that of the access. (log 89, DESIGN CHOICE) -/
def soWaits (s : State) (x : XM) (ps : List Piece) (rel : Bool) : Bool :=
  relWaits s x ps rel || (ps.any (·.ord == 3) && s.loading s.cur)
/-- The stall cause of that wait: a release waits for acknowledgements; a wait for older loads alone is none of Table 21-9. -/
def soCause (s : State) (x : XM) (ps : List Piece) (rel : Bool) : Nat := if relWaits s x ps rel then 12 else 0

/-- Whether an access of pieces is an acquire: any of them is one by its class (Table 05-3). -/
def acqAny (x : XM) (ps : List Piece) : Bool := ps.any fun p => effAcq p.ord (xmAcq x)

/-- What an aperture access waits for, as an access of class DV: older loads, earlier SO and DV accesses, and with release order
every earlier access (R30, R89, R92, R185). -/
def apertureWaits (s : State) (x : XM) : Bool :=
  s.loading s.cur || soDvOut s s.cur || (xmRel x && wideScope x.scope.toNat s.cur && !allAcked s s.cur)
/-- The stall cause of that wait: a release's alone is one of Table 21-9. -/
def apertureCause (s : State) (x : XM) : Nat := if xmRel x && wideScope x.scope.toNat s.cur && !allAcked s s.cur then 12 else 0

/-- An ld or st of the aperture: its checks (R30), its watchpoints (R336), what it waits for, then its effect. -/
def apertureAt (x : XM) (k : Right) (core ts ea n : Nat) (body : State → State) (s : State) : State :=
  match frameBad s core ts ea n with
  | some c => trap c (BitVec.ofNat 64 ea) s
  | none => match watched s.me k ea n with
    | some b => trap 0x08 (BitVec.ofNat 64 b) s
    | none => if apertureWaits s x then waits (apertureCause s x) s else body s

def execLd (g : Guard) (x : XM) (s : State) : Out :=
  scalarI g (memLen x) (fun s =>
    let ea := effAddr s.me.r x
    let n := sizeOf x.d.width
    counted x.ctr.toNat (fun s =>
      match place s.cur ea n with
      | some (.frame core ts o) => apertureAt x .r core ts ea n (fun s =>
          advance (memLen x) (countEv s.cur 0x04 1 (putMe x.d (frameRead (s.th (core * 4 + ts)) o n) s))) s
      | _ =>
        match checkAccess s s.cur .r ea n with
        | .error b => badAccess ea b s
        | .ok ps =>
          if soWaits s x ps false then waits (soCause s x ps false) s
          else countEv s.cur 0x04 1 (stall s.cur 9 (laneConflict s ps) (issueLoad x
            { start := x.d.start.toNat, width := x.d.width, lanes := [(0, ps)] } (acqAny x ps) s))) s) s

/-! ### Stores -/

/-- The pieces of a store with their bytes, in order. -/
def storeParts (parts : List (List Piece × List Byte)) : List (Piece × List Byte) :=
  parts.flatMap fun e => (e.1.foldl (fun a p => (a.1 ++ [(p, a.2.take p.n)], a.2.drop p.n)) ([], e.2)).1

/-- Parts of one store that follow one another within one line go as one, so that a store of a whole sector is a write of it
(R55); DV accesses are never combined (R92). -/
def joinParts : List (Piece × List Byte) → List (Piece × List Byte)
  | [] => []
  | e :: l => match joinParts l with
    | (q, bs) :: r =>
      if e.1.pa + e.1.n = q.pa ∧ e.1.va + e.1.n = q.va ∧ e.1.ord = q.ord ∧ e.1.ord ≠ 3 ∧ e.1.pa / 64 = (q.pa + q.n - 1) / 64
      then ({ e.1 with n := e.1.n + q.n }, e.2 ++ bs) :: r
      else e :: (q, bs) :: r
    | [] => [e]

/-- Performs a store in place, or holds it (R100, R223, R225). A held store that finds no room commits first (R383); a store in
place with release order at cluster scope or wider waits for every earlier access on its way (R107), not for what the window still
holds (log 88, DESIGN CHOICE). Its counter rises once, for what is to
be acknowledged (R187). (log 57, DESIGN CHOICE) (log 94, DESIGN CHOICE) -/
def issueStore (x : XM) (parts : List (List Piece × List Byte)) (s : State) : State :=
  let u := s.cur
  let flat := joinParts (storeParts parts)
  let rel (p : Piece) : Bool := effAcq p.ord (xmRel x)
  let far (p : Piece) : Bool := p.ord == 0 || wideScope x.scope.toNat u
  let a := s.act u
  let isHeld (p : Piece) : Bool := s.me.act.isSome && a.restartable && holds s u p
  let more := (flat.filter fun e => isHeld e.1).map fun e =>
    ({ va := e.1.va, pa := e.1.pa, lvl := e.1.lvl, bytes := e.2, ord := e.1.ord, rel := rel e.1, wide := far e.1,
       scope := x.scope.toNat, epoch := a.fences } : Held)
  let now := flat.filter fun e => !isHeld e.1
  if !more.isEmpty && !windowFits a more 0 then waits 11 (startDrain false s)
  else if now.any (fun e => rel e.1 && far e.1) && !allAcked s u then waits 12 s
  else
    let s := useLate u .w (flat.map (·.1)) (stall u 9 (laneConflict s (parts.flatMap (·.1))) (countEv u 0x05 1 s))
    let s := s.modAct u fun a => { a with held := a.held ++ more }
    let first := s.nextId
    let s := now.foldl (fun s e => putStore
     { ts := u, gen := (s.th u).gen, reactor := a.reactor, tag := a.q.tag, ctr := some x.ctr.toNat, group := first, p := e.1
       bytes := e.2, rel := rel e.1, wide := far e.1, scope := x.scope.toNat, epoch := a.fences, priv := a.priv } (addRange u e.1.pa e.1.n s)) s
    advance (memLen x) (if s.nextId = first then s else s.incC u x.ctr.toNat)

/-- The bytes that a store writes: its value extended to 8S bits under the type (R222). -/
def storeBytes (ty v w n : Nat) : List Byte := leBytes n (ext ty v (4 * w) (8 * n))

def execSt (g : Guard) (x : XM) (s : State) : Out :=
  scalarI g (memLen x) (fun s =>
    let ea := effAddr s.me.r x
    let n := sizeOf x.b.width
    let bs := storeBytes x.ty.toNat (readZ x.b x.lit s) x.b.width n
    if s.loading s.cur then s
    else counted x.ctr.toNat (fun s =>
      match place s.cur ea n with
      | some (.frame core ts o) => apertureAt x .w core ts ea n (fun s =>
          advance (memLen x) (countEv s.cur 0x05 1 (s.modTh (core * 4 + ts) fun t => frameWrite t o n (leNat bs)))) s
      | _ =>
        match checkAccess s s.cur .w ea n with
        | .error b => badAccess ea b s
        | .ok ps => issueStore x [(ps, bs)] s) s) s

/-! ### Vector loads and stores (R226) -/

/-- The address of a lane: contiguous, or the base plus the lane's offset. -/
def laneAddr (r : Regs) (x : XM) (gather : Bool) (n l : Nat) : Nat :=
  if gather then (effAddr r x + ext x.ty.toNat (readLane r.vec l (rngOf x.b)) (4 * x.b.width) 64) % 2 ^ 64
  else (effAddr r x + l * n) % 2 ^ 64

/-- Every selected lane's check, in lane order: the lanes with their addresses and translations, or the first lane that
traps, or the first that misses. -/
def checkLanes (s : State) (k : Right) (n : Nat) (ls : List (Nat × Nat)) :
    Except (Nat × Nat × Bad) (List (Nat × Nat × List Piece)) :=
  let rs := ls.map fun l => (l.1, l.2, checkAccess s s.cur k l.2 n)
  let bad (f : Bad → Bool) := rs.find? fun e => match e.2.2 with
    | .error b => f b
    | .ok _ => false
  match bad (fun b => match b with | .trap .. => true | _ => false) with
  | some (l, va, .error b) => .error (l, va, b)
  | _ =>
    match bad (fun _ => true) with
    | some (l, va, .error b) => .error (l, va, b)
    | _ => .ok (rs.filterMap fun e => match e.2.2 with
        | .ok ps => some (e.1, e.2.1, ps)
        | .error _ => none)

/-- What a failing lane does: its trap with LANE and TVAL its address, for a watchpoint the first watched byte (R336); or the
walk for its page. (log 98, DESIGN CHOICE) -/
def badLane (b : Nat × Nat × Bad) (s : State) : State :=
  match b.2.2 with
  | .trap c v => trapLane c b.1 (BitVec.ofNat 64 (if c = 0x08 then v else b.2.1)) s
  | .miss va xi k => if s.loading s.cur then s else lateMiss b.2.1 (some b.1) va xi k s

def selLanes (sel : BitVec 8) : List Nat := (List.range 8).filter fun l => sel.getLsbD l

def execVld (g : Guard) (x : XM) (s : State) : Out :=
  vectorI g (memLen x) (fun sel s =>
    let n := sizeOf x.d.width
    counted x.ctr.toNat (fun s =>
      match checkLanes s .r n ((selLanes sel).map fun l => (l, laneAddr s.me.r x (x.b.file = 1) n l)) with
      | .error b => badLane b s
      | .ok ls =>
        let ps := ls.flatMap (·.2.2)
        if soWaits s x ps false then waits (soCause s x ps false) s
        else countEv s.cur 0x04 1 (stall s.cur 9 (laneConflict s ps) (issueLoad x
          { vec := true, start := x.d.start.toNat, width := x.d.width, lanes := ls.map fun l => (l.1, l.2.2) }
          (acqAny x ps) s))) s) s

/-- In the scatter form d holds the value and b the offsets; else b, or a literal, holds the value (R226). -/
def execVst (g : Guard) (x : XM) (s : State) : Out :=
  vectorI g (memLen x) (fun sel s =>
    let scatter := x.lit.isNone && x.d.file = 1
    let v : Slot := if scatter then x.d else x.b
    let n := sizeOf v.width
    let val (l : Nat) : Nat := match x.lit with
      | some w => w.toNat % 2 ^ (4 * v.width)
      | none => readLane s.me.r.vec l (rngOf v)
    if s.loading s.cur then s
    else counted x.ctr.toNat (fun s =>
      match checkLanes s .w n ((selLanes sel).map fun l => (l, laneAddr s.me.r x scatter n l)) with
      | .error b => badLane b s
      | .ok ls => issueStore x (ls.map fun l => (l.2.2, storeBytes x.ty.toNat (val l.1) v.width n)) s) s) s

/-! ### Atomics at the core (R228, R229) -/

def atomicAt (x : XM) (a : Atomic) (s : State) : State :=
  let ea := effAddr s.me.r x
  if s.loading s.cur then s
  else if ea % a.size ≠ 0 then trap 0x02 (BitVec.ofNat 64 ea) s
  else counted x.ctr.toNat (fun s =>
    match checkAccess s s.cur .a ea a.size with
    | .error b => badAccess ea b s
    | .ok ps =>
      if soWaits s x ps (xmRel x) then waits (soCause s x ps (xmRel x)) s
      else
        let u := s.cur
        let s := useLate u .a ps s
        let s := stall u 9 (laneConflict s ps) s
        let rel := ps.any fun p => effAcq p.ord (xmRel x)
        let snap := s.me.r
        let spot := spotOf s.me
        let d : Dest := { scope := x.scope.toNat, start := x.d.start.toNat, width := x.d.width, lanes := [(0, ps)] }
        let (s, got) := match ps with
          | [p] => if atOnce s u ps rel then let (s, q) := performAtomic (s.agent u 0) (s.th u).gen a p s; (s, some [q]) else (s, none)
          | _ => (s, none)
        advance (memLen x) ((countEv u 0x04 1 (s.emit (.load u x.ctr.toNat d (some a) (acqAny x ps) rel snap spot
          got))).incC u x.ctr.toNat)) s

def execAmo (g : Guard) (x : XM) (s : State) : Out :=
  scalarI g (memLen x) (committed fun s =>
    let n := sizeOf x.d.width
    atomicAt x
     { op := x.op.toNat, signed := x.ty = 0, size := n,
       b := BitVec.ofNat 64 (ext x.ty.toNat (readZ x.b x.lit s) (4 * x.b.width) 64 % 2 ^ (8 * n)) } s) s

def execAcas (g : Guard) (x : XM) (s : State) : Out :=
  scalarI g (memLen x) (committed fun s =>
    let n := sizeOf x.d.width
    atomicAt x
     { cas := true, size := n,
       b := BitVec.ofNat 64 (ext x.ty.toNat (readZ x.b x.lit s) (4 * x.b.width) 64 % 2 ^ (8 * n)),
       e := BitVec.ofNat 64 (ext x.ty.toNat (readSlices s.me.r.scalar (rngOf x.d)) (4 * x.d.width) 64 % 2 ^ (8 * n)) } s) s

/-! ### Synchronisation (R235 to R237), done (R217) -/

/-- What a fence whose halves have been met leaves behind: with a release half on the load/store path, later held stores follow
the earlier ones in the drain (R102); naming that path and an engine's, it shows that engine the held stores (R103). (log 65, DEDUCED,
DEDUCED) -/
def fenceMarks (m : Nat) (rel : Bool) (a : Act) : Act :=
  { a with fences := if rel && m.testBit 0 then a.fences + 1 else a.fences
           held := a.held.map fun h => { h with visCopy := h.visCopy || (m.testBit 0 && m.testBit 1)
                                                visMat := h.visMat || (m.testBit 0 && m.testBit 2) } }

/-- fence: the release half waits, at cluster scope or wider, for acknowledgements, the acquire half for older loads (R102,
R107); an empty mask does nothing (R105). (log 65, DEDUCED) A store in place or a command after the fence does not wait for stores
that the commit window still holds. (log 94, DESIGN CHOICE) -/
def execFence (g : Guard) (x : XM) (s : State) : Out :=
  scalarI g (memLen x) (fun s =>
    let m := readZ x.b x.lit s % 64
    let rel := x.ord != 1 && wideScope x.scope.toNat s.cur
    if m = 0 then advance (memLen x) s
    else if (x.ord != 2 && s.loading s.cur) || (rel && !allAcked s s.cur) then waits 12 s
    else advance (memLen x) (s.modAct s.cur (fenceMarks m rel))) s

def execWait (g : Guard) (x : XM) (s : State) : Out :=
  scalarI g (memLen x) (fun s => if s.me.c x.ctr.toNat = 0 then advance (memLen x) s else waits 10 s) s

def execCommit (g : Guard) (x : XM) (s : State) : Out :=
  scalarI g (memLen x) (committed fun s =>
    if allAcked s s.cur then advance (memLen x) s else waits 12 s) s

/-- done waits for older loads, then drains, or past the commit point waits for its stores' acknowledgements; DRAIN_END
and DONE_RETIRE carry on (R217). -/
def endActivation (s : State) : State := if s.me.act.isSome then drainNow true s else s.modMe fun t => { t with mode := .free }
def execDone (g : Guard) (s : State) : Out := scalarI g 4 endActivation s
def execDoneExt (g : Guard) (x : XA) (s : State) : Out := scalarI g (extLen x.lit) endActivation s

/-! ### cvta, pf and cwb (R31, R238 to R240) -/

/-- The cluster form and the scratchpad-window form of a core's scratchpad byte (Table 02-4). -/
def clusterForm (core off : Nat) : Nat := 2 * 2 ^ 60 + (core % 256) * 2 ^ 19 + off
def farForm (core off : Nat) : Nat :=
  0xE * 2 ^ 60 + (core / 32768) * 2 ^ 34 + (core / 1024 % 32) * 2 ^ 29 + (core % 1024) * 2 ^ 19 + off

/-- The conversion of R31; `none` where cvta raises the address trap. -/
def convert (u ea : Nat) (far : Bool) : Option Nat :=
  match place u ea 1 with
  | some (.sp core off) => some (if far then farForm core off else if ea / 2 ^ 60 = 2 then ea else clusterForm core off)
  | some (.far core off) =>
    if far then some ea else if core / 256 = cluOf u then some (clusterForm core off) else none
  | _ => none

def execCvta (g : Guard) (x : XM) (s : State) : Out :=
  scalarI g (memLen x) (fun s =>
    let ea := effAddr s.me.r x
    match convert s.cur ea (x.scope = 5) with
    | none => trap 0x02 (BitVec.ofNat 64 ea) s
    | some v => advance (memLen x) (putMe x.d v s)) s

/-- The length of a pf or cwb range (R239, R240). -/
def rangeLen (x : XM) (s : State) : Nat := min (readZ x.b x.lit s) 65536

/-- Lines of a piece by number. -/
def pieceLines (p : Piece) : List Nat := (List.range ((p.pa + p.n - 1) / 64 + 1 - p.pa / 64)).map (p.pa / 64 + ·)

/-- Fetches the lines of translated pieces into the memory-side caches; a line not resident, refused or held by a dead peer
is skipped (R239). -/
def fetchPieces (ps : List Piece) (s : State) : State :=
  ps.foldl (fun s p =>
    let s := useLate s.cur .r [p] s
    if isSp p.pa then s
    else
      let s := if reach s (s.agent s.cur 0) p .r = .ok then remoteAdd (s.agent s.cur 0) p s else s
      (pieceLines p).foldl (fun s l =>
      let (s, pa) := lineHome s (l * 64)
      if reach s (s.agent s.cur 0) { p with va := 0, pa := l * 64, n := 64 } .r = .ok && (frameSt s pa).isNone
      then cacheLine pa false s else s) s) s

/-- Whether a late-bound page is not resident: its walk ends at an entry that is mapped and not resident. -/
def notResident (s : State) (va : Nat) : Bool :=
  match walkTables s (s.agent s.cur 0) va with
  | .absent => true
  | _ => false

/-- The pieces of a pf range, page by page, without the late-bound pages that are not resident (R239). (log 22, DEDUCED) -/
def pfPieces (s : State) : Nat → Nat → Nat → Except Bad (List Piece)
  | 0, _, _ => .ok []
  | f + 1, va, n =>
    if n = 0 then .ok []
    else
      let m := min n (65536 - va % 65536)
      match judgeAccess s s.cur .r false none va m with
      | .ok ps => (pfPieces s f (va + m) (n - m)).map (ps ++ ·)
      | .error (.miss v x k) =>
        if notResident s v then pfPieces s f (va + m) (n - m) else .error (.miss v x k)
      | .error b => .error b

def execPf (g : Guard) (x : XM) (s : State) : Out :=
  scalarI g (memLen x) (fun s =>
    let ea := effAddr s.me.r x
    let n := rangeLen x s
    if n = 0 then advance (memLen x) s
    else counted x.ctr.toNat (fun s =>
      match judgeAccess s s.cur .r false none ea n with
      | .error (.trap c v) => badAccess ea (.trap c v) s
      | .ok ps => advance (memLen x) (fetchPieces ps s)
      | .error (.miss ..) =>
        match pfPieces s 3 ea n with
        | .error b => badAccess ea b s
        | .ok ps => advance (memLen x) (fetchPieces ps s)) s) s

def execCwb (g : Guard) (x : XM) (s : State) : Out :=
  scalarI g (memLen x) (fun s =>
    let ea := effAddr s.me.r x
    let n := rangeLen x s
    if n = 0 then advance (memLen x) s
    else counted x.ctr.toNat (fun s =>
      match judgeAccess s s.cur .w false none ea n with
      | .error b => badAccess ea b s
      | .ok ps => advance (memLen x) (ps.foldl (fun s p =>
          let s := useLate s.cur .w [p] s
          if isSp p.pa then s
          else match reach s (s.agent s.cur 0) p .w with
            | .ok => (pieceLines p).foldl (fun s l =>
                let (s, pa) := lineHome s (l * 64)
                if (Map.get? s.cached (pa / 64)).isSome then { s with cached := Map.set s.cached (pa / 64) false } else s)
                (remoteAdd (s.agent s.cur 0) p s)
            | .refused v => errorTo (s.act s.cur).reactor
                { addr := BitVec.ofNat 64 v, tagt := (s.act s.cur).q.tagt, tagm := (s.act s.cur).q.tagm,
                  peer := BitVec.ofNat 32 (unitOfPa p.pa), cause := 1 } s
            | _ => errorTo (s.act s.cur).reactor
                { addr := BitVec.ofNat 64 p.va, tagt := (s.act s.cur).q.tagt, tagm := (s.act s.cur).q.tagm,
                  peer := BitVec.ofNat 32 (unitOfPa p.pa), cause := 2 } s) s)) s) s

/-! ### Data and acknowledgements -/

/-- Writes a load's data to its destination (R222): each lane's low 4w bits. -/
def Dest.write (d : Dest) (gs : List Got) (r : Regs) : Regs :=
  gs.foldl (fun r g => if d.vec then r.putLane ⟨d.start, d.width⟩ g.lane (leNat g.bytes)
    else r.put ⟨d.start, d.width⟩ (leNat g.bytes)) r

/-- The trap code of a load's failure (Table 12-3), and its TVAL; STRUCTURAL cancels instead. A read that stayed held takes the trap of
a page that does not come (R73, R75). (log 75, DEDUCED) (log 84, DESIGN CHOICE) -/
def Result.trapOf : Result → Option (Nat × Nat)
  | .refused v => some (0x05, v)
  | .deadPeer v => some (0x06, v)
  | .grave v => some (0x07, v)
  | .notResident v => some (0x02, v)
  | .notOwner v => some (0x02, v)
  | _ => none

/-- The oldest load of a thread set. -/
def oldestLoad (s : State) (u : Nat) : Option Nat :=
  (s.flight.find? fun e => match e.2 with
    | .load ts .. => ts == u
    | _ => false).map (·.1)

/-- Undoes what followed a load that fails with a trap (R185): registers, repetition and running block as at its issue, younger
loads withdrawn with their counter increments. (log 104, DESIGN CHOICE) -/
def undoTo (u id : Nat) (snap : Regs) (spot : Spot) (s : State) : State :=
  let s := s.flight.foldl (fun s e => match e.2 with
    | .load ts c .. => if ts = u ∧ id < e.1 then (s.endFl e.1).decC u c else s
    | _ => s) s
  s.modTh u fun t => { t with r := snap, pc := spot.pc, repst := spot.repst, blk := spot.blk, hist := 0 }

/-- LOAD_DATA_ARRIVAL: the data reach the thread set (R184, R185, R223, R227). Not yet performed, it is no event; a load
that fails waits for every older load. A refused amo or acas takes the precise trap of Table 12-3, not R37's completion
entry. (log 75, DEDUCED) -/
def execLoadDataArrival (id : Nat) (s : State) : Out :=
  .next (match s.fl? id with
  | some (.load u c d _ _ _ snap spot (some gs)) =>
    match gs.find? fun g => g.res != .ok with
    | some g =>
      if oldestLoad s u != some id || s.owed u id then s
      else
        let s := dropWork u false ((undoTo u id snap spot (s.endFl id)).decC u c)
        match g.res.trapOf with
        | some (code, v) => freezeAt u code (if d.vec then some g.lane else none) (BitVec.ofNat 64 v) s
        | none => cancelAct u s
    | none =>
      let hs := (s.act u).held
      let gs := gs.map fun g => { g with bytes := overlayPieces hs (((d.lanes.find? fun l => l.1 == g.lane).map (·.2)).getD []) g.bytes }
      let s := (s.endFl id).modTh u fun t => { t with r := d.write gs t.r }
      let s := { s with flight := s.flight.map fun (e : Nat × Flight) => match e.2 with
        | .load ts c' d' a q w sn pc' x => if ts = u ∧ id < e.1 then (e.1, .load ts c' d' a q w (d.write gs sn) pc' x) else e
        | _ => e }
      let s := s.decC u c
      let s := if s.loading u then s else s.modTh u fun t => { t with hist := 0 }
      gs.foldl (fun s g => noteRead (s.act u).reactor (s.act u).q.tag [] g.bnd s)
        (noteRead 0 (0, 0) (gs.flatMap (·.neg)).eraseDups none s)
  | _ => s)

/-- The error record of a failed store (Tables 12-3, 20-4). -/
def storeFailed (reactor : Nat) (tag : W64 × W32) (p : Piece) (r : Result) (s : State) : State :=
  let err (v c : Nat) := errorTo reactor
    { addr := BitVec.ofNat 64 v, tagt := tag.1, tagm := tag.2, peer := BitVec.ofNat 32 (unitOfPa p.pa),
      cause := BitVec.ofNat 8 c } s
  match r with
  | .refused v | .notOwner v => err v 1
  | .deadPeer v => err v 2
  | .bounceFull v => err v 3
  | _ => s

/-- Whether another piece of a store's instruction is still to be acknowledged. -/
def restOut (s : State) (q : StoreReq) : Bool :=
  s.flight.any fun e => match e.2 with
    | .store r => r.ctr.isSome && r.ts == q.ts && r.gen == q.gen && r.group == q.group
    | _ => false

/-- Whether a thread set can take now the address trap of an access of an activation that has found another owner on its arrival (R25):
`none` once that activation has ended. (log 60, DESIGN CHOICE) -/
def ownerTrap (s : State) (u gen : Nat) : Option Bool :=
  let t := s.th u
  if t.gen ≠ gen ∨ t.act.isNone then none
  else some ((match t.mode with
    | .run | .halted | .drain _ | .drained _ => true
    | _ => false) && !s.awaits u)

/-- STORE_ACK: the target acknowledges a store, or its failure is reported (R107, R108, R122, R223); the counter of the
activation that issued it falls with the last piece of its instruction (R187). A store of the own bulkhead that an earlier
request held back is performed first. One that has found another owner raises the address trap where its activation still runs
(R25). (log 60, DESIGN CHOICE) -/
def execStoreAck (id : Nat) (s : State) : Out :=
  .next (match s.fl? id with
  | some (.store q) =>
    if !q.performed && (bhOfPa q.p.pa != bhOf q.ts || blocked s id q.req) then s
    else
      let (s, res) := if q.performed then (s, q.res) else performStore (q.agent s 0) q.p q.bytes s
      let done (s : State) : State :=
        let s := s.endFl id
        match q.ctr with
        | some c => if (s.th q.ts).gen = q.gen ∧ !restOut s q then s.decC q.ts c else s
        | none => s
      match res, ownerTrap s q.ts q.gen with
      | .notOwner v, some true => freezeAt q.ts 0x02 none (BitVec.ofNat 64 v) (done s)
      | .notOwner _, some false => s.setFl id (.store { q with performed := true, res := res })
      | _, _ => storeFailed q.reactor q.tag q.p res (done s)
  | _ => s)

/-- DRAIN_END: every held store has been acknowledged or has failed, and so has every earlier access (R101, R108).
(log 14, DESIGN CHOICE) -/
def execDrainEnd (ts : Nat) (s : State) : Out :=
  .next (match (s.th ts).mode with
  | .drain fin => if allAcked s ts then s.modTh ts fun t => { t with mode := .drained fin } else s
  | _ => s)

/-- Held events leave with the release of R114, as the send queue has room for them (R217, R237, R243). -/
def releaseMsgs (u : Nat) (s : State) : State :=
  let ms := (s.act u).msgs
  let n := 64 - (s.co (coreOf u)).sendq.length
  (ms.take n).foldl (fun s m => leave m s) (s.modAct u fun a => { a with msgs := ms.drop n })

/-- COMMIT_COMPLETE: the held events leave, and with the last of them the activation is past its commit point (R237). -/
def execCommitComplete (ts : Nat) (s : State) : Out :=
  .next (if (s.th ts).mode = .drained false then
      let s := releaseMsgs ts s
      if (s.act ts).msgs.isEmpty then s.modTh ts fun t => { t with mode := .run } else s
    else s)

/-- DONE_RETIRE: the held events leave; with the last of them the activation has completed, and the thread set is free (R217 to
R219). -/
def execDoneRetire (ts : Nat) (s : State) : Out :=
  .next (if (s.th ts).mode = .drained true then
      let s := releaseMsgs ts s
      if (s.act ts).msgs.isEmpty then evalDev (devOf ts) (endRun ts 0 s) else s
    else s)

end Sys2Proof.Machine
end

