-- ==== Sys2Proof/Machine/Weevil.lean ====
section
/-! DEFINITION. Weevil.lean: famo, mcas, lenq and pchase (R230 to R234), the gates (R37, R83, R110), the Weevil's side and its
replies, and the timeouts of a held read (R75) and of a reply (R422). -/

namespace Sys2Proof.Machine

/-! ### Issue -/

/-- The next number of a reactor's Weevil sequence (R230). -/
def weevilSeq (r : Nat) (s : State) : W32 × State := ((s.re r).seqWeev, s.modRe r fun x => { x with seqWeev := x.seqWeev + 1 })

/-- Issues a Weevil operation on one checked piece. (log 56, DEDUCED) -/
def issueWeevil (x : XM) (d : Option (Nat × Nat)) (p : Piece) (w : Weevil) (s : State) : State :=
  let u := s.cur
  let a := s.act u
  let (q, s) := weevilSeq a.reactor s
  advance (memLen x) ((s.emit (.weevil
   { ts := u, gen := (s.th u).gen, reactor := a.reactor, tag := a.q.tag, seq := q, ctr := x.ctr.toNat, d := d, va := p.va, p := p
     w := w, acq := acqAny x [p], rel := effAcq p.ord (xmRel x), scope := x.scope.toNat, priv := a.priv })).incC u x.ctr.toNat)

/-- Checks n bytes with right A, and core-side watchpoints of a kind, and issues the operation, `note` beside it, which a trap leaves
behind too; `out` is what its reply is to store, as a store of the thread set, watched too (R232, R336). It waits behind older loads. -/
def weevilAt (x : XM) (ea n : Nat) (kind : Right) (d : Option (Nat × Nat)) (w : Weevil) (out : Nat × Nat) (note : State → State)
    (s : State) : State :=
  if s.loading s.cur then s
  else counted x.ctr.toNat (fun s =>
    let stops (c v : Nat) : State := if s.awaits s.cur then s else trap c (BitVec.ofNat 64 v) (note s)
    match judgeAccess s s.cur .a true (some kind) ea n, watched s.me .w out.1 out.2 with
    | .error (.trap c v), _ => stops c v
    | _, some b => stops 0x08 b
    | .error b, none => badAccess ea b s
    | .ok [p], none => if soWaits s x [p] (xmRel x) then waits (soCause s x [p] (xmRel x)) s
        else issueWeevil x d p w (useLate s.cur .a [p] (note s))
    | .ok _, none => stops 0x02 ea) s

def destOf (x : XM) : Option (Nat × Nat) := some (x.d.start.toNat, x.d.width)

def execFamo (g : Guard) (x : XM) (s : State) : Out :=
  scalarI g (memLen x) (committed fun s =>
    let ea := effAddr s.me.r x
    let n := sizeOf x.d.width
    if ea % n ≠ 0 then trap 0x02 (BitVec.ofNat 64 ea) s
    else weevilAt x ea n .a (destOf x) (.famo
     { op := x.op.toNat, signed := x.ty = 0, size := n,
       b := BitVec.ofNat 64 (ext x.ty.toNat (readZ x.b x.lit s) (4 * (extSrc x.b x.lit).width) 64 % 2 ^ (8 * n)) }) (0, 0) id s) s

/-- Words i to i + n - 1 of a byte string. -/
def wordsAt (bs : List Byte) (off n : Nat) : List W64 :=
  (List.range n).map fun i => BitVec.ofNat 64 (leNat ((bs.drop (off + 8 * i)).take 8))

/-- mcas reads its descriptor as ld would, and judges it, before the target (R232). -/
def execMcas (g : Guard) (x : XM) (s : State) : Out :=
  scalarI g (memLen x) (committed fun s =>
    let ea := effAddr s.me.r x
    let p := readZ x.b x.lit s
    if s.loading s.cur then s
    else if p / 2 ^ 60 ≠ 1 ∨ p % 8 ≠ 0 ∨ 0x60000 < p % 2 ^ 60 + 72 then trap 0x02 (BitVec.ofNat 64 p) s
    else match checkAccess s s.cur .r p 72 with
      | .error b => badAccess p b s
      | .ok dps =>
        if !atOnce s s.cur dps false then s
        else
          let o := readPieces (s.agent s.cur 0) dps s
          -- what the read leaves behind, once the instruction goes on from it
          let note (s : State) : State :=
            stall s.cur 9 (laneConflict s dps)
              (noteRead (s.act s.cur).reactor (s.act s.cur).q.tag o.neg o.bnd (readPieces (s.agent s.cur 0) dps s).st)
          let stops (c v : Nat) : State := if s.awaits s.cur then s else trap c (BitVec.ofNat 64 v) (note s)
          if o.sev = 4 then (if s.awaits s.cur then s else cancelAct s.cur (note s))
          else if o.sev = 3 then stops 0x07 o.at3
          else
            let bs := overlayPieces (s.act s.cur).held dps o.bytes
            let h := leNat (bs.take 8)
            let n := h % 4 + 1
            if h / 4 ≠ 0 then stops 0x02 p
            else if ea % 8 ≠ 0 ∨ 64 < ea % 64 + 8 * n then stops 0x02 ea
            else weevilAt x ea (8 * n) .a (destOf x) (.mcas p (wordsAt bs 8 n) (wordsAt bs 0x28 n)) (p + 8, 8 * n) note s) s

def execLenq (g : Guard) (x : XM) (s : State) : Out :=
  scalarI g (memLen x) (committed fun s =>
    let ea := effAddr s.me.r x
    let n := ext x.ty.toNat (readZ x.b x.lit s) (4 * (extSrc x.b x.lit).width) 64
    if ea % 16 ≠ 0 then trap 0x02 (BitVec.ofNat 64 ea) s
    else if n % 16 ≠ 0 then trap 0x02 (BitVec.ofNat 64 n) s
    else weevilAt x ea 16 .a none (.lenq n) (0, 0) id s) s

def execPchase (g : Guard) (x : XM) (s : State) : Out :=
  scalarI g (memLen x) (fun s =>
    let ea := effAddr s.me.r x
    let k := ext x.ty.toNat (readZ x.b x.lit s) (4 * (extSrc x.b x.lit).width) 64
    if ea % 16 ≠ 0 then trap 0x02 (BitVec.ofNat 64 ea) s
    else weevilAt x ea 16 .r (destOf x) (.pchase (BitVec.ofNat 64 k) 0 false false none) (0, 0) id s) s

/-! ### The gates (R37, R110) -/

/-- The path of an access: load/store in the own bulkhead, else fabric inbound (Table 05-1). -/
def pathOf (u : Nat) (ps : List Piece) : Nat := if isNear u ps then 0 else 4

/-- The pieces of a load, lane by lane. -/
def Dest.pieces (d : Dest) : List Piece := d.lanes.flatMap (·.2)

/-- The agent of a load or atomic in flight. -/
def loadAgent (s : State) (u : Nat) (d : Dest) : Agent :=
  { farAgent s u (s.act u).reactor (pathOf u d.pieces) (s.act u).priv with passed := d.passed }

/-- Whether a read waits at gates that all let it pass: a piece of it lies in a withdrawn frame (R37, R75, R121). -/
def heldLane (s : State) (g : Agent) (k : Right) (ps : List Piece) : Bool :=
  ps.all (fun p => reach s g p k == .ok) && ps.any (heldPiece s)

/-- GATE_LOAD_REQUEST: a load reaches its targets and is performed; a read of a withdrawn frame is held, admitted once for all (R37, R39,
R75). -/
def execGateLoadRequest (id : Nat) (s : State) : Out :=
  .next (match s.fl? id with
  | some (.load u c d none acq rel snap spot none) =>
    if !gateReady s id then s
    else if heldLane s (loadAgent s u d) .r d.pieces then
      s.setFl id (.load u c { d with passed := true } none acq rel snap spot none)
    else
      let (s, got) := performLanes (loadAgent s u d) .r d.lanes s
      s.setFl id (.load u c d none acq rel snap spot (some got))
  | _ => s)

/-- GATE_STORE_REQUEST: a store reaches its target's gate and is performed or refused (R37, R38). -/
def execGateStoreRequest (id : Nat) (s : State) : Out :=
  .next (match s.fl? id with
  | some (.store q) =>
    if !gateReady s id || bhOfPa q.p.pa = bhOf q.ts then s
    else
      let (s, e) := performStore (q.agent s 4) q.p q.bytes s
      s.setFl id (.store { q with performed := true, res := e })
  | _ => s)

/-- GATE_ATOMIC_REQUEST: an amo or acas is performed in one piece at its target (R111, R228). -/
def execGateAtomicRequest (id : Nat) (s : State) : Out :=
  .next (match s.fl? id with
  | some (.load u c d (some a) acq rel snap spot none) =>
    match d.pieces with
    | [p] =>
      if !gateReady s id then s
      else if heldLane s (loadAgent s u d) .a [p] then
        s.setFl id (.load u c { d with passed := true } (some a) acq rel snap spot none)
      else
        let (s, got) := performAtomic (loadAgent s u d) (s.th u).gen a p s
        s.setFl id (.load u c d (some a) acq rel snap spot (some [got]))
    | _ => s
  | _ => s)

/-! ### The Weevil's side -/

/-- Sets the reply of a Weevil operation. -/
def weevilDone (id : Nat) (r : WReply) (s : State) : State :=
  match s.fl? id with
  | some (.weevil q) => s.setFl id (.weevil { q with reply := some r })
  | _ => s

/-- The agent of a Weevil operation: its issuer, in bulkhead `bh`. -/
def WeevilReq.agent (q : WeevilReq) (s : State) (bh : Nat) : Agent :=
  { farAgent s q.ts q.reactor 3 q.priv with bh := bh, passed := q.passed }

/-- Whether a Weevil may perform an access of a piece for a request: the gate's order lets it, nothing holds the piece, and no
earlier request of the issuer to the same address is under way (R75, R110, R112). -/
def weevilReady (s : State) (id : Nat) (q : WeevilReq) (p : Piece) (g : Agent) (k : Right) : Bool :=
  !blocked s id { ts := q.ts, ps := [p], rel := q.rel, wide := false } && !heldLane s g k [p] &&
    !(s.flight.any fun e => match e.2 with
      | .weevil v => e.1 < id && v.ts == q.ts && v.va == q.va && v.reply.isNone
      | _ => false)

/-- A request that a Weevil cannot perform yet waits; one that a withdrawn frame holds has been admitted (R39, R75). -/
def weevilWaits (id : Nat) (q : WeevilReq) (g : Agent) (k : Right) (s : State) : State :=
  if heldLane s g k [q.p] then s.setFl id (.weevil { q with passed := true }) else s

def gotReply (g : Got) (p : Piece) : WReply :=
  { v := BitVec.ofNat 64 (leNat g.bytes), res := g.res, unit := unitOfPa p.pa, neg := !g.neg.isEmpty, bnd := g.bnd.isSome }

/-- Whether a request came in a combined packet that another leads. -/
def isLed (s : State) (id : Nat) : Bool :=
  s.wire.any fun e => e.1 != id && e.2.group.any fun m => (Map.get {} s.wire id).asks.contains m.1

/-- The same result at another address, that of another member of a combined request. -/
def Result.moved (v : Nat) : Result → Result
  | .ok => .ok
  | .refused _ => .refused v
  | .deadPeer _ => .deadPeer v
  | .bounceFull _ => .bounceFull v
  | .notResident _ => .notResident v
  | .grave _ => .grave v
  | .structural _ => .structural v
  | .unmapped _ => .unmapped v
  | .permission _ => .permission v
  | .unaligned _ => .unaligned v
  | .notOwner _ => .notOwner v

/-- The members of a combined request get their values: what the target held and the operands of the members before, or each the same
error (R421). -/
def groupReplies (size : Nat) (r : WReply) (ms : List ((Nat × Nat) × Nat)) (s : State) : State :=
  (ms.foldl (fun (acc : State × Nat) m =>
    let s := acc.1.flight.foldl (fun s e => match e.2 with
      | .weevil q =>
        if q.reply.isNone && (Map.get {} acc.1.wire e.1).asks.contains m.1 then
          weevilDone e.1 { r with v := BitVec.ofNat 64 ((r.v.toNat + acc.2) % 2 ^ (8 * size)), res := r.res.moved q.p.va }
            (if r.res = .ok then addRangeOf q.ts q.gen q.p.pa q.p.n s else s)
        else s
      | _ => s) acc.1
    (s, acc.2 + m.2)) (s, 0)).1

/-- WEEVIL_FAMO: the fetch-and-operate is performed (R231). A combined request is performed once, with the sum of its members'
operands (R420, R421). -/
def execWeevilFamo (id : Nat) (s : State) : Out :=
  .next (match s.fl? id with
  | some (.weevil q) =>
    match q.w, q.reply with
    | .famo a, none =>
      let g := q.agent s (bhOf q.ts)
      let ms := (Map.get {} s.wire id).group
      if isLed s id then s
      else if !weevilReady s id q q.p g .a then weevilWaits id q g .a s
      else
        let sum := BitVec.ofNat 64 ((ms.map (·.2)).foldl (· + ·) 0)
        let (s, got) := performAtomic g q.gen (if ms.isEmpty then a else { a with b := sum }) q.p s
        if ms.isEmpty then weevilDone id (gotReply got q.p) s else groupReplies a.size (gotReply got q.p) ms s
    | _, _ => s
  | _ => s)

/-- WEEVIL_MCAS: the words are compared and, when all match, written, in one piece (R232). -/
def execWeevilMcas (id : Nat) (s : State) : Out :=
  .next (match s.fl? id with
  | some (.weevil q) =>
    match q.w, q.reply with
    | .mcas _ old new, none =>
      let g := q.agent s (bhOf q.ts)
      if !weevilReady s id q q.p g .a then weevilWaits id q g .a s
      else
        let (s, got) := readWrite g q.gen q.p (fun bs =>
          if wordsAt bs 0 old.length = old then some (new.flatMap fun v => leBytes 8 v.toNat) else none) s
        let m := wordsAt got.bytes 0 old.length
        let same := got.res = .ok ∧ m = old
        weevilDone id { gotReply got q.p with v := if same then 1 else 0, words := m } s
    | _, _ => s
  | _ => s)

/-- Where a pointer leads that a Weevil follows: to a piece, to a failure with the place of a malformed entry and, where a gate
refuses or a target is dead, with the target (R378), or nowhere yet, since a read of a table is held (R75). -/
inductive Hop where
  | go (p : Piece)
  | fails (r : Result) (entry : Option Nat) (target : Option Nat)
  | held
  deriving DecidableEq, Repr

/-- A pointer that a Weevil follows: its translation through the issuer's page tables, the leaf right, and the target
(R69, R230). `root` is the issuer's bulkhead; g stands in the Weevil's. -/
def weevilHop (s : State) (g : Agent) (root ptr n : Nat) (k : Right) : Hop :=
  if ptr % 16 ≠ 0 then .fails (.unaligned ptr) none none
  else match walkAt s root g ptr with
    | .unmapped => .fails (.unmapped ptr) none none
    | .absent => .fails (.notResident ptr) none none
    | .malformed e => .fails (.unmapped ptr) (some e) none
    | .refused e => .fails (.refused ptr) none (some (unitOfPa e))
    | .dead e => .fails (.deadPeer ptr) none (some (unitOfPa e))
    | .held _ => .held
    | .leaf e lvl en =>
      if !tenantOk s e then .fails (.unmapped ptr) (some en) none
      else if !(match k with | .r => pteR e | .w => pteW e | .a => pteA e) then .fails (.permission ptr) none none
      else
        let p : Piece := { va := ptr, pa := leafPa e lvl ptr, n := n, ord := pteOrd e, lvl := lvl }
        match reach s g p k with
        | .ok => .go p
        | r => .fails r none (some (unitOfPa p.pa))

/-- The cause 5 record of a malformed entry on a Weevil's walk (R230); PEER is the issuing thread set while one runs the activation, else
its core (Table 20-3). -/
def weevilMalformed (bh : Nat) (q : WeevilReq) (e : Option Nat) (s : State) : State :=
  match e with
  | none => s
  | some pa => logTo bh { addr := BitVec.ofNat 64 pa, tagt := q.tag.1, tagm := q.tag.2,
                          peer := BitVec.ofNat 32 (if (s.th q.ts).gen = q.gen ∧ (s.th q.ts).act.isSome then q.ts else coreOf q.ts * 4),
                          cause := 5, phys := true } s

/-- Whether the Weevil of a bulkhead has gone with a member that the issuer's side holds dead (R121). -/
def weevilGone (s : State) (q : WeevilReq) (w : Nat) : Bool := w != bhOf q.ts && peerDead s (bhOf q.ts) w

/-- WEEVIL_LENQ: the header update in one piece, which the watchpoints see as one access (R406), and then, as a step of its own, the link
write; where its target lies on another device it is sent there first (R233, R414). -/
def execWeevilLenq (id : Nat) (s : State) : Out :=
  .next (match s.fl? id with
  | some (.weevil q) =>
    match q.w, q.reply with
    | .lenq n, none =>
      let g := q.agent s (bhOf q.ts)
      if !weevilReady s id q q.p g .a then weevilWaits id q g .a s
      else
        let h := { g with whole := true }
        let (s, got) := performLane h .a 0 [q.p] s
        if got.res != .ok then weevilDone id (gotReply got q.p) s
        else
          let old := leNat (got.bytes.drop 8)
          let bs := if old = 0 then leBytes 8 n ++ leBytes 8 n else leBytes 8 n
          let o := 16 - bs.length
          let pa := (lineHome s q.p.pa).2
          let s := watchAt g (bhOfPa pa) (some (pa, 16)) (some (pa + o, bs.length)) bs s
          let s := (writePiece h { q.p with va := q.p.va + o, pa := q.p.pa + o, n := bs.length } bs s).1
          let s := addRangeOf q.ts q.gen (q.p.pa + o) bs.length s
          if old = 0 then weevilDone id { gotReply got q.p with v := 0 } s
          else s.setFl id (.weevil { q with passed := false, w := .link n old (!got.neg.isEmpty) got.bnd.isSome })
    | .link n old ng bd, none =>
      let w := q.via.getD (bhOfPa q.p.pa)
      let g := q.agent s w
      let fails (r : Result) (unit : Nat) (s : State) : State :=
        weevilDone id { res := r, unit := unit, neg := ng, bnd := bd } s
      let write (p : Piece) (s : State) : State :=
        let (s, r) := performStore { g with path := if bhOfPa p.pa = w then 3 else 4 } p (leBytes 8 n) s
        fails r (unitOfPa p.pa) (if r = .ok then addRangeOf q.ts q.gen p.pa 8 s else s)
      if weevilGone s q w then fails (.deadPeer old) (unitOfPa q.p.pa) s
      else if q.via.isSome then (if blocked s id { ts := q.ts, ps := [q.p], rel := q.rel, wide := false } then s else write q.p s)
      else match weevilHop s g (bhOf q.ts) old 8 .w with
        | .held => s
        | .fails r e t => fails r (t.getD (w * 4096)) (weevilMalformed w q e (walkReads s (bhOf q.ts) g old))
        | .go p =>
          if blocked s id { ts := q.ts, ps := [p], rel := q.rel, wide := false } then s
          else
            let s := walkReads s (bhOf q.ts) g old
            if devOfBh (bhOfPa p.pa) = devOfBh w then write p s else s.setFl id (.weevil { q with p := p, via := some w })
    | _, _ => s
  | _ => s)

/-- One Weevil's part of a chase: nodes are read while they lie in its bulkhead. A chase whose next node lies elsewhere stops
there, and the step that takes it up again forwards it. The fuel counts reads and translations. -/
def chase (id : Nat) : Nat → Bool → WeevilReq → State → State
  | 0, _, _, s => s
  | f + 1, first, q, s =>
    match q.w with
    | .pchase key hops ng bd next =>
      let w := bhOfPa q.p.pa
      match next with
      | some ptr =>
        let g := q.agent s w
        match weevilHop s g (bhOf q.ts) ptr 16 .r with
        | .held => s.setFl id (.weevil q)
        | .fails r e t => weevilDone id { res := r, unit := t.getD (w * 4096), neg := ng, bnd := bd }
            (weevilMalformed w q e (walkReads s (bhOf q.ts) g ptr))
        | .go p =>
          if bhOfPa p.pa != w && !first then s.setFl id (.weevil q)
          else
            let s := remoteAdd g p (walkReads s (bhOf q.ts) g ptr)
            let q := { q with p := p, w := .pchase key hops ng bd none, via := some w }
            if bhOfPa p.pa = w then chase id f false q s else s.setFl id (.weevil q)
      | none =>
        let g := q.agent s (if hops = 0 then bhOf q.ts else w)
        let k : Right := if hops = 0 then .a else .r
        if !weevilReady s id q q.p g k then weevilWaits id q g k (s.setFl id (.weevil q))
        else
          let (s, got) := performLane g k 0 [q.p] s
          let r : WReply := { gotReply got q.p with v := 0, neg := ng || !got.neg.isEmpty, bnd := bd || got.bnd.isSome }
          let next := leNat (got.bytes.take 8)
          if got.res != .ok then weevilDone id r s
          else if leNat (got.bytes.drop 8) = key.toNat then weevilDone id { r with v := BitVec.ofNat 64 q.p.va } s
          else if next = 0 then weevilDone id { r with v := 1 } s
          else if hops + 1 = 8 then weevilDone id { r with v := BitVec.ofNat 64 (next ||| 2) } s
          else chase id f false { q with passed := false, w := .pchase key (hops + 1) r.neg r.bnd (some next) } s
    | _ => s

/-- WEEVIL_PCHASE: the Weevil that holds the request walks its part of the chain (R234). -/
def execWeevilPchase (id : Nat) (s : State) : Out :=
  .next (match s.fl? id with
  | some (.weevil q) =>
    match q.w, q.reply with
    | .pchase _ _ ng bd _, none =>
      let w := bhOfPa q.p.pa
      if weevilGone s q w then weevilDone id { res := .deadPeer q.p.va, unit := unitOfPa q.p.pa, neg := ng, bnd := bd } s
      else chase id 16 true q s
    | _, _ => s
  | _ => s)

/-- PCHASE_SLOT_TIMEOUT: a chase that waits to be forwarded gets no slot for 4,096 cycles and returns a continuation. -/
def execPchaseSlotTimeout (id : Nat) (s : State) : Out :=
  .next (match s.fl? id with
  | some (.weevil q) =>
    match q.w, q.reply with
    | .pchase _ _ ng bd (some ptr), none =>
      let w := bhOfPa q.p.pa
      (match weevilHop s (q.agent s w) (bhOf q.ts) ptr 16 .r with
       | .go p => if bhOfPa p.pa = w then s
         else weevilDone id { v := BitVec.ofNat 64 (ptr ||| 3), unit := unitOfPa p.pa, neg := ng, bnd := bd } s
       | _ => s)
    | _, _ => s
  | _ => s)

/-- A failure's generic address. -/
def Result.va : Result → Nat
  | .ok => 0
  | .refused v | .deadPeer v | .bounceFull v | .notResident v | .grave v | .structural v | .unmapped v
  | .permission v | .unaligned v | .notOwner v => v

/-- WEEVIL_REPLY: the reply reaches the issuer, in issue order for one address: descriptor, then d, then the completion
entry of a failure or a flag, then the counter; what read as STRUCTURAL cancels the activation (R56, R112, R223, R230, R232). An
operation that has found another owner raises the address trap where its activation still runs (R25). (log 60, DESIGN CHOICE)
(log 56, DEDUCED) (log 75, DEDUCED) -/
def execWeevilReply (id : Nat) (s : State) : Out :=
  .next (match s.fl? id with
  | some (.weevil q) =>
    match q.reply with
    | none => s
    | some r =>
      if s.flight.any fun e => match e.2 with
        | .weevil v => v.ts == q.ts && e.1 < id && v.va == q.va
        | _ => false
      then s
      else
        let u := q.ts
        let live := (s.th u).gen = q.gen ∧ (s.th u).act.isSome
        let s0 := s
        let s := s.endFl id
        match r.res, ownerTrap s u q.gen with
        | .notOwner v, some true => freezeAt u 0x02 none (BitVec.ofNat 64 v) (s.decC u q.ctr)
        | .notOwner _, some false => s0
        | _, _ =>
        let s := match q.w with
          | .mcas desc _ _ => if r.res = .ok then
              let bs := r.words.flatMap fun v => leBytes 8 v.toNat
              let pa := spAddr (coreOf u) (desc % 2 ^ 60 + 8)
              addRangeOf u q.gen pa bs.length (writePiece (farAgent s u q.reactor 0 q.priv)
                { va := desc + 8, pa := pa, n := bs.length } bs s).1
            else s
          | _ => s
        let put (x : Regs) : Regs := match q.d with
          | some (st, wd) => x.put ⟨st, wd⟩ r.v.toNat
          | none => x
        let s := if live ∧ r.res = .ok then
            let s := s.modTh u fun t => { t with r := put t.r }
            { s with flight := s.flight.map fun (e : Nat × Flight) => match e.2 with
              | .load ts c' d' a q w' sn pc' x => if ts = u ∧ id < e.1 then (e.1, .load ts c' d' a q w' (put sn) pc' x) else e
              | _ => e }
          else s
        let s := if r.res != .ok || r.neg || r.bnd then
            completeTo q.reactor (complEntry q.seq (if r.res = .ok then u else r.unit) r.res.cls
              (if r.res = .ok then q.va else r.res.va) (32 * r.neg.toNat + 64 * r.bnd.toNat) 2) s
          else s
        let s := if live then s.decC u q.ctr else s
        match r.res with
        | .structural _ => cancelIssuer u q.gen s
        | _ => s
  | _ => s)

/-! ### Timeouts -/

/-- What a Weevil's held read ends with: at a node or target that a withdrawn frame holds, or at a pointer whose translation a
table in one holds. -/
def heldWeevil (s : State) (q : WeevilReq) : Option Nat :=
  let hop (ptr n : Nat) (k : Right) : Option Nat :=
    match weevilHop s (q.agent s (bhOfPa q.p.pa)) (bhOf q.ts) ptr n k with
    | .held => some ptr
    | _ => none
  match q.w with
  | .link _ old _ _ => if q.via.isSome then none else hop old 8 .w
  | .pchase _ _ _ _ (some ptr) => hop ptr 16 .r
  | .pchase _ hops .. =>
    if heldLane s (q.agent s (if hops = 0 then bhOf q.ts else bhOfPa q.p.pa)) (if hops = 0 then .a else .r) [q.p]
    then some q.p.va else none
  | _ => if heldLane s (q.agent s (bhOf q.ts)) .a [q.p] then some q.p.va else none

/-- The NEGLIGIBLE and BOUNDED flags that an operation has gathered on its way. -/
def Weevil.flags : Weevil → Bool × Bool
  | .link _ _ ng bd => (ng, bd)
  | .pchase _ _ ng bd _ => (ng, bd)
  | _ => (false, false)

/-- HELD_READ_TIMEOUT: a read held for 50 µs at a withdrawn frame ends "not resident"; a walk's or an engine's goes on from a mark
(R75). (log 21, DEDUCED) -/
def execHeldReadTimeout (id : Nat) (s : State) : Out :=
  .next (match s.fl? id with
  | some (.load u c d a acq rel snap spot none) =>
    if heldLane s (loadAgent s u d) (if a.isSome then .a else .r) d.pieces then
      s.setFl id (.load u c d a acq rel snap spot (some (d.lanes.map fun l =>
        { lane := l.1, res := match l.2.find? (heldPiece s) with
            | some p => .notResident p.va
            | none => .ok })))
    else s
  | some (.weevil q) =>
    if q.reply.isSome then s
    else match heldWeevil s q with
      | some v => weevilDone id { res := .notResident v, unit := unitOfPa q.p.pa, neg := q.w.flags.1, bnd := q.w.flags.2 } s
      | none => s
  | some (.engine ..) | some (.walk ..) =>
    if s.flight.any fun e => e.2 == .heldRead id then s else s.emit (.heldRead id)
  | some (.hostRead p pa n) => hostReadTimeout id p pa n s
  | _ => s)

/-- REPLY_TIMEOUT: no reply within 100 µs from another bulkhead: the request fails with dead peer, performed or not, and
a later reply is discarded (R422, Table 06-1). -/
def execReplyTimeout (id : Nat) (s : State) : Out :=
  .next (match s.fl? id with
  | some (.load u c d a acq rel snap spot _) =>
    if isNear u (d.lanes.flatMap (·.2)) then s
    else s.setFl id (.load u c d a acq rel snap spot (some (d.lanes.map fun l =>
      { lane := l.1, res := .deadPeer ((l.2.head?.map (·.va)).getD 0) })))
  | some (.store q) =>
    if bhOfPa q.p.pa = bhOf q.ts then s else s.setFl id (.store { q with performed := true, res := .deadPeer q.p.va })
  | some (.weevil q) =>
    if bhOfPa q.p.pa = bhOf q.ts ∧ q.via.isNone then s else weevilDone id { res := .deadPeer q.p.va, unit := unitOfPa q.p.pa } s
  | some (.pin w leaf lvl va en none) => s.setFl id (.pin w leaf lvl va en (some 2))
  | _ => s)

end Sys2Proof.Machine
end

