-- ==== Sys2Proof/Machine/Arming.lean ====
section
/-! DEFINITION. Arming.lean: launch records, arming and disarming (R134 to R139, R245, R316, R341, R343, R349, R379, R444). -/

namespace Sys2Proof.Machine

/-! ### The record (Table 07-2) -/

/-- The place of record `rec` in the pool of a bulkhead's partition, when PLPOOL holds one (R436); a record whose ENTRY is
zero is EMPTY (log 6, PRESUMED). -/
def recordPa (s : State) (bh rec : Nat) : Option Nat :=
  let p := (s.bu bh).plpool
  let pa := (p.extractLsb' 20 32).toNat * 2 ^ 20 + 256 * rec
  if p.getLsbD 0 && s.rawNat pa 8 != 0 then some pa else none

/-- n bytes at an offset of a record's value. -/
def rb (f off n : Nat) : Nat := (f >>> (8 * off)) % 2 ^ (8 * n)

/-- An address of a paged window, bits [59:48] zero (R18). -/
def pagedAddr (a : Nat) : Bool := 3 ≤ a / 2 ^ 60 && a / 2 ^ 60 ≤ 0xD && a / 2 ^ 48 % 2 ^ 12 == 0
/-- A handler's address. -/
def handlerAddr (a : Nat) : Bool := pagedAddr a && a % 4 == 0

/-- A region's table entry: INIT, INITLEN, BANK (Table 07-5), with whether it is well formed for the region's size. -/
structure RegEntry where
  init : Nat := 0
  len : Nat := 0
  bank : Nat := 0xFF
  ok : Bool := true

def regEntry (e sz : Nat) : RegEntry :=
  let r : RegEntry := { init := rb e 0 8, len := rb e 8 4, bank := rb e 12 1 }
  { r with ok := rb e 13 3 == 0 && (r.init == 0 || pagedAddr r.init) &&
      (if sz = 0 then e == 0 else r.len ≤ 64 * sz && (r.bank < 12 || r.bank == 0xFF)) }

/-- A launch record as read, with what it names in tenant memory: connection entries, region-table entries. -/
structure LRec where
  f : Nat
  conns : List Nat := []
  regs : List RegEntry := []

def LRec.ctrl (r : LRec) : Nat := rb r.f 0x40 8
def LRec.place (r : LRec) : Nat := rb r.f 0x10 16
def LRec.size (r : LRec) (i : Nat) : Nat := rb r.f (0x20 + 2 * i) 2
def LRec.layout (r : LRec) (b : Nat) : Nat := rb r.f (0x30 + b) 1
def LRec.swz (r : LRec) (b : Nat) : Nat := fld (rb r.f 0x3C 4) (2 * b + 1) (2 * b)
def LRec.tm (r : LRec) (b : Nat) : Nat := fld r.ctrl (4 + b) (4 + b)
def LRec.depth (r : LRec) : Nat := 2 ^ (fld r.ctrl 18 16 + 2)
def LRec.hostrx (r : LRec) : Bool := r.ctrl.testBit 28
def LRec.ext (r : LRec) (i : Nat) : Nat := rb r.f (0x98 + 4 * i) 4
def LRec.arg (r : LRec) (i : Nat) : Nat := rb r.f (0xC0 + 8 * i) 8

/-- The fields of the record itself that status 5 judges (R135): an address outside the paged windows, or a handler address that
is not a word's (R147), is outside its range. (log 68, DEDUCED) -/
def LRec.fieldsOk (r : LRec) : Bool :=
  let p := r.place
  let c := r.ctrl
  fld p 127 117 == 0 && 1 ≤ fld p 20 10 && fld p 20 10 ≤ 1024 &&
    (let w := fld p 116 113
     let o := fld p 112 65
     if w = 0 then o == 0 else 3 ≤ w && w ≤ 0xD && o % 64 == 0) &&
    fld (rb r.f 0x3C 4) 31 24 == 0 && fld c 63 29 == 0 && fld c 3 2 != 3 && fld c 18 16 != 7 &&
    fld c 21 19 ≤ 4 && fld c 27 22 ≤ 60 &&
    ((List.range 8).all fun i => r.size i ≤ 6144) &&
    ((List.range 12).all fun b => layoutOk (r.layout b) && r.swz b != 3) &&
    ((List.range 10).all fun i => let e := r.ext i
                                  fld e 21 0 == 0 && (!e.testBit 31 || fld e 30 29 != 0)) &&
    handlerAddr (rb r.f 0 8) && (rb r.f 8 8 == 0 || handlerAddr (rb r.f 8 8)) &&
    (fld c 27 22 == 0 || pagedAddr (rb r.f 0x50 8))

/-- A connection entry that status 5 lets pass. -/
def connOk (c : Nat) : Bool := fld c 127 111 == 0 && fld c 22 21 != 3

/-- A bulkhead's sequencer as it reads and writes launch records. (log 97, DESIGN CHOICE) -/
def recordAgent (s : State) (bh : Nat) : Agent := { unit := bh * 4096, bh := bh, part := s.partOf bh, priv := true }

/-- A record with its connection and region tables, or the status that stops it: 5 before 12 (R135); the watchpoints see the read of
the record (R337). (log 59, DEDUCED) (log 68, DEDUCED) -/
def readRecord (s : State) (bh pa : Nat) : State × Except Nat (LRec × List (List Byte)) :=
  let g := recordAgent s bh
  let s := watchHit g true false pa 256 [] s
  let r : LRec := { f := s.rawNat pa 256 }
  let nin := fld r.ctrl 21 19
  let nx := fld r.ctrl 27 22
  let (s, xt) := if nx = 0 then (s, some []) else readVirt g (nx * 16 / 65536 + 2) (rb r.f 0x50 8) (16 * nx) s
  let w := fld r.place 116 113
  let (s, rt) := if w = 0 then (s, some (List.replicate 128 (0 : Byte)))
    else readVirt g 2 (w * 2 ^ 60 + fld r.place 112 65) 128 s
  let inl := (List.range 4).map fun i => if i < nin then rb r.f (0x58 + 16 * i) 16 else 0
  let xs := (xt.map fun bs => (List.range nx).map fun i => rb (leNat bs) (16 * i) 16).getD []
  let regs := if w = 0 then List.replicate 8 ({} : RegEntry)
    else (rt.map fun bs => (List.range 8).map fun i => regEntry (rb (leNat bs) (16 * i) 16) (r.size i)).getD []
  let r := { r with conns := inl ++ xs, regs := regs }
  if !r.fieldsOk || !r.conns.all connOk || !regs.all (·.ok) then (s, .error 5)
  else if xt.isNone || rt.isNone then (s, .error 12)
  else
    let (s, inits) := r.regs.foldl (fun (a : State × List (Option (List Byte))) e =>
      let (s, i) := if e.init = 0 ∨ e.len = 0 then (a.1, some []) else readVirt g (e.len / 65536 + 2) e.init e.len a.1
      (s, a.2 ++ [i])) (s, [])
    (s, if inits.any (·.isNone) then .error 12 else .ok (r, inits.map (·.getD [])))

/-- The cores that a record places instances on, in placement order (R135). -/
def LRec.cores (r : LRec) : List Nat :=
  let p := r.place
  let y0 := fld p 52 49
  let x0 := fld p 56 53
  (List.range (fld p 20 10)).flatMap fun d =>
    ((List.range 24).filter fun b => (fld p 44 21).testBit b).flatMap fun b =>
      ((List.range 4).filter fun c => (fld p 48 45).testBit c).flatMap fun c =>
        (List.range (fld p 60 57 + 1)).flatMap fun y => (List.range (fld p 64 61 + 1)).map fun x =>
          (((fld p 9 0 + d) * 32 + b) * 4 + c) * 256 + 16 * (y0 + y) + (x0 + x)

/-- Whether the placement lies within a partition (R135). (log 101, DESIGN CHOICE) -/
def LRec.placed (r : LRec) (s : State) (part : Nat) : Bool :=
  let p := r.place
  fld p 9 0 + fld p 20 10 ≤ 1024 && fld p 52 49 + fld p 60 57 < 16 && fld p 56 53 + fld p 64 61 < 16 &&
    !r.cores.isEmpty && r.cores.all fun c => s.partOf? (bhOfCore c) == some part

/-! ### Room on a core -/

/-- The reactors placed on a core, or on their way to it. -/
def placedOn (s : State) (core : Nat) : List (Nat × Reactor) :=
  s.reac.filter fun e => e.2.core == core || s.flight.any fun (f : Nat × Flight) => match f.2 with
    | .move r dst .. => r == e.1 && dst == core
    | _ => false

/-- The ranges of banks 0 to 11 that the reactors of a core hold, or that a move has reserved there (Table 19-7). -/
def usedOn (s : State) (core : Nat) : List (Nat × Nat) :=
  (placedOn s core).flatMap fun e =>
    let r := e.2
    r.regions.map (fun g => (g.2.1, g.2.2)) ++ [(r.ctl, 1024), (r.ring, 32 * r.depth), (r.cq, 1024), (r.eq, 1024)]

/-- The format that a bank of a core is to have: that which a move to it has reserved (Table 19-7), that of a rewrite under way,
or its own. -/
def fmtOn (s : State) (core b : Nat) : W64 :=
  match s.flight.findSome? fun (f : Nat × Flight) => match f.2 with
      | .move r dst .. => if dst = core ∧ (s.re r).banks.contains b then some (s.bfmt (s.re r).core b) else none
      | _ => none with
  | some v => v
  | none => (((s.co core).rewriting.reverse.find? fun w => w.1 == b).map fun w => w.2.1).getD (s.bfmt core b)

def clearOf (used : List (Nat × Nat)) (o n : Nat) : Bool :=
  o + n ≤ 0x60000 && used.all fun u => o + n ≤ u.1 || u.1 + u.2 ≤ o
/-- The banks that a range touches. -/
def banksOf (o n : Nat) : List Nat := if n = 0 then [] else (List.range ((o + n - 1) / 0x8000 + 1 - o / 0x8000)).map (o / 0x8000 + ·)

/-- The lowest 64-byte aligned place for a region of n bytes whose first byte lies in [lo, hi) (R444). (log 30, DEDUCED) -/
def fitUp (used : List (Nat × Nat)) (lo hi n : Nat) : Option Nat :=
  (([lo] ++ used.map fun (u : Nat × Nat) => (u.1 + u.2 + 63) / 64 * 64).filter fun o => lo ≤ o && o < hi && clearOf used o n).min?
/-- The highest place for a service structure of n bytes in banks that pass a test (R139, R341, R379). (log 30, DEDUCED) -/
def fitDown (used : List (Nat × Nat)) (ok : Nat → Bool) (n : Nat) : Option Nat :=
  (((List.range 13).map (fun b => 0x8000 * b - n) ++ used.map fun (u : Nat × Nat) => (u.1 - n) / 64 * 64).filter fun o =>
    clearOf used o n && (banksOf o n).all ok).max?

/-- One instance's place: core, regions, control block, queue, completion ring, error ring, and the BFMT values of the
banks that its regions occupy, with whether another reactor occupies the bank. -/
structure Plan where
  core : Nat
  regions : List (Nat × Nat × Nat)
  ctl : Nat
  ring : Nat
  cq : Nat
  eq : Nat
  banks : List (Nat × W64 × Bool)

/-- The BFMT value that a record gives a bank, with the fields of R316. -/
def LRec.bfmtOf (r : LRec) (b cb sc : Nat) (scv : Bool) : W64 :=
  BitVec.ofNat 64 (cb / 64 * 2 ^ 51 + sc / 64 * 2 ^ 35 + scv.toNat * 2 ^ 34 + r.tm b * 1024 + r.swz b * 256 + r.layout b)

/-- The places open to region i of a record: its bank's, or any (R444). -/
def LRec.span (r : LRec) (i : Nat) : Nat × Nat :=
  let b := ((r.regs[i]?).map (·.bank)).getD 0xFF
  if b = 0xFF then (0, 0x60000) else (0x8000 * b, 0x8000 * (b + 1))
/-- The lowest place for region i beside what is used. -/
def LRec.fit (r : LRec) (used : List (Nat × Nat)) (i : Nat) : Option Nat :=
  fitUp used (r.span i).1 (r.span i).2 (64 * r.size i)

/-- Regions placed one after another, each at the lowest place that fits, in the first order that leaves the rest of the plan
room; the fuel is their number. (log 30, DEDUCED) -/
def placeRegions {α : Type} (r : LRec) (rest : List (Nat × Nat) → List (Nat × Nat × Nat) → Option α) :
    Nat → List Nat → List (Nat × Nat) → List (Nat × Nat × Nat) → Option α
  | 0, _, used, acc => rest used acc
  | f + 1, is, used, acc =>
    if is.any fun i => (r.fit used i).isNone then none
    else is.findSome? fun i =>
      match r.fit used i with
      | none => none
      | some o => placeRegions r rest f (is.erase i) (used ++ [(o, 64 * r.size i)]) (acc ++ [(i, o, 64 * r.size i)])

/-- The regions of a record, those that name their bank first. -/
def LRec.present (r : LRec) : List Nat :=
  let is := (List.range 8).filter fun i => r.size i != 0
  let pinned (i : Nat) : Bool := r.span i != (0, 0x60000)
  is.filter pinned ++ is.filter fun i => !pinned i

/-- A clash with the formats in force in an occupied bank, or reserved there (status 4): LAYOUT, SWZ or TM, or a pointer that would
differ. -/
def bankClash (s : State) (core : Nat) (banks : List (Nat × W64 × Bool)) : Bool :=
  banks.any fun b =>
    let old := fmtOn s core b.1
    let differs (lo n : Nat) : Bool := b.2.1.extractLsb' lo n != 0 && b.2.1.extractLsb' lo n != old.extractLsb' lo n
    b.2.2 && (b.2.1.extractLsb' 0 11 != old.extractLsb' 0 11 || differs 51 13 || differs 35 13 || differs 34 1)
def planClash (s : State) (p : Plan) : Bool := bankClash s p.core p.banks

/-- The rest of a core's plan, its regions being placed: the service structures and the bank formats; where `strict`, formats that
clash with none in force. -/
def planRest (s : State) (r : LRec) (core : Nat) (strict : Bool) (used0 used : List (Nat × Nat)) (regs : List (Nat × Nat × Nat)) :
    Option Plan :=
  let rbanks := (regs.flatMap fun g => banksOf g.2.1 g.2.2).eraseDups
  let occ (b : Nat) : Bool := used0.any fun u => (banksOf u.1 u.2).contains b
  let lowest (l : Nat) : Nat :=
    (((regs.filter fun g => r.layout (g.2.1 / 0x8000) == l).map fun g => g.2.1).min?).getD 0
  let has16 := rbanks.any fun b => r.layout b == 0x16
  let vals := rbanks.map fun b =>
    (b, r.bfmtOf b (lowest 0x17) (lowest 0x16) (has16 && 0x13 ≤ r.layout b && r.layout b ≤ 0x15), occ b)
  let raw (b : Nat) : Bool :=
    b < 12 && (if rbanks.contains b && !occ b then r.layout b ≤ 4 else (fmtOn s core b).extractLsb' 0 8 ≤ 4)
  match if strict && bankClash s core vals then none else fitDown used raw 1024 with
  | none => none
  | some ctl =>
    let used := used ++ [(ctl, 1024)]
    match fitDown used raw (32 * r.depth) with
    | none => none
    | some ring =>
      let used := used ++ [(ring, 32 * r.depth)]
      match fitDown used raw 1024 with
      | none => none
      | some cq =>
        match fitDown (used ++ [(cq, 1024)]) raw 1024 with
        | none => none
        | some eq => some { core := core, regions := regs, ctl := ctl, ring := ring, cq := cq, eq := eq, banks := vals }

/-- The plan for one core: one that clashes with no format in force where there is such a one, `none` where the core lacks room
(status 3). -/
def planCore (s : State) (r : LRec) (core : Nat) : Option Plan :=
  let k := s.co core
  if 16 ≤ (placedOn s core).length || k.retired || k.killed then none
  else
    let used := usedOn s core
    let plan (strict : Bool) : Option Plan := placeRegions r (planRest s r core strict used) r.present.length r.present used []
    match plan true with
    | some p => some p
    | none => plan false

/-! ### Instances -/

/-- Whether a connection or an entry on its way still names a reactor that has moved away (R375). -/
def stillNamed (s : State) (k : Nat) : Bool :=
  (s.reac.any fun e => e.2.conns.any fun c => c.stands && c.target == k) ||
    s.flight.any fun e => match e.2 with
      | .entry r .. => r == k
      | _ => false

/-- The lowest reactor id of a cluster that no reactor, new or old, and no forwarding entry holds, and that nothing names. -/
def freeRid (s : State) (cl : Nat) (taken : List Nat) : Nat :=
  ((List.range 65536).find? fun i =>
    !s.hasRe (reacKey cl i) && !taken.contains (reacKey cl i) && !stillNamed s (reacKey cl i) &&
      (s.cl cl).fwd.all fun w => w.2.orid != i).getD 0

/-- The keys of the new reactors, in placement order. -/
def newKeys (s : State) : List Plan → List Nat → List Nat
  | [], acc => acc
  | p :: ps, acc => newKeys s ps (acc ++ [reacKey (cluOfCore p.core) (freeRid s (cluOfCore p.core) acc)])

/-- The reactor of an instance, its connections not yet bound. -/
def newReactor (r : LRec) (part rec gang inst : Nat) (p : Plan) : Reactor :=
  { core := p.core, gang := gang, record := rec, inst := inst, part := part, entry := BitVec.ofNat 64 (rb r.f 0 8),
    lateEntry := BitVec.ofNat 64 (rb r.f 8 8), prio := fld r.ctrl 1 0, hostrx := r.hostrx,
    joins := Vector.ofFn fun i => (fld (rb r.f 0x48 8) (4 * i.val + 3) (4 * i.val), fld (rb r.f 0x48 8) (4 * i.val + 3) (4 * i.val)),
    exts := Vector.ofFn fun i => BitVec.ofNat 32 (r.ext i.val),
    regions := p.regions, ctl := p.ctl, ring := p.ring, depth := r.depth, cq := p.cq, eq := p.eq,
    banks := p.banks.map (·.1), spares := r.depth - 1 - r.hostrx.toNat, ingressFree := r.hostrx.toNat,
    sigMode := BitVec.ofNat 2 (fld r.ctrl 3 2) }

/-- What stands in a gang for an instance that a bulkhead's reset has taken (R394). -/
def lostKey : Nat := 2 ^ 64

/-- The connection of an instance to the reactor it names, or the status that stops it (6, 7, 8). -/
def bindConn (s : State) (part rec inst : Nat) (me : Nat) (news : List Nat) (c : Nat) : Except Nat Conn :=
  let bits : W128 := BitVec.ofNat 128 c
  if !c.testBit 0 then .ok { bits := bits, target := 0, tport := 0, f := 0 }
  else
    let idx : Int := match fld c 22 21 with
      | 0 => inst
      | 1 => inst + sgn (fld c 54 23) 32
      | _ => fld c 54 23
    -- a gang that resets have taken whole lives no more (R394)
    let insts := if fld c 20 9 = rec then some news
      else ((s.pt part).gangs.find? fun g => g.record == fld c 20 9 && g.keys.any s.hasRe).map (·.keys)
    match insts with
    | none => .error 7
    | some l =>
      if idx < 0 then .error 6
      else match l[idx.toNat]? with
        | none => .error 6
        | some t =>
          -- an instance that a reset has taken exists no more (R394)
          if t = lostKey then .error 6
          else if bhOfReac t ≠ bhOfReac me ∧ fld c 110 87 = 0 then .error 8
          else .ok { bits := bits, target := t, tport := fld c 8 5 }

/-- Where a connection's target is now (R375). -/
def Conn.live (s : State) (c : Conn) : Nat := liveKey s 4 c.target
/-- D as R349 takes it: 0 within a bulkhead. -/
def effBound (s : State) (r : Nat) (c : Conn) : Nat := if bhOfReac (c.live s) = bhOfReac r then 0 else c.bound
/-- The reactors whose input connections Dmax of a reactor is taken over (R128). -/
def dmaxOver (s : State) (r : Nat) : List Nat := closure s s.reac.length [r]
/-- Dmax of a reactor (R128, R349). -/
def dmaxOf (s : State) (r : Nat) : Nat :=
  let all := dmaxOver s r
  (s.reac.flatMap fun e => e.2.conns.map fun c =>
    if c.stands && all.contains (c.live s) then effBound s e.1 c else 0).foldl max 0
/-- Computes Dmax of a newly armed gang's reactors, and anew of every reactor that their connections reach (R349). -/
def refreshDmax (gang : List Nat) (s : State) : State :=
  let reached := gang.flatMap fun r => ((s.re r).conns.filter (·.stands)).map (·.live s)
  { s with reac := s.reac.map fun e => (e.1,
      if gang.contains e.1 || (dmaxOver s e.1).any reached.contains then { e.2 with dmax := dmaxOf s e.1 } else e.2) }

/-- Writes an instance's memory: bank formats, regions, control block, queue and rings (R45, R139, R316, R444). -/
def layInstance (r : LRec) (p : Plan) (inits : List (List Byte)) (s : State) : State :=
  let s := p.banks.foldl (fun s b => if b.2.2 then s else setBfmt p.core b.1 b.2.1 s) s
  let s := p.regions.foldl (fun s g =>
    let i := (inits[g.1]?).getD []
    s.put (spAddr p.core g.2.1) (i ++ List.replicate (g.2.2 - i.length) 0)) s
  let loc (o : Nat) : Nat := 2 ^ 60 + o
  let base (i : Nat) : Nat := ((p.regions.find? fun g => g.1 == i).map fun g => loc g.2.1).getD 0
  let cb := List.replicate 0x40 (0 : Byte) ++ ((List.range 8).flatMap fun i => leBytes 8 (base i)) ++
    leBytes 8 (loc p.cq) ++ leBytes 8 (loc p.eq) ++ leBytes 8 0 ++ ((List.range 8).flatMap fun i => leBytes 8 (r.arg i))
  let s := s.put (spAddr p.core p.ctl) (cb ++ List.replicate (1024 - cb.length) 0)
  let s := s.put (spAddr p.core p.ring) (List.replicate (32 * r.depth) 0)
  let s := s.put (spAddr p.core p.cq) (List.replicate 1024 0)
  s.put (spAddr p.core p.eq) (List.replicate 1024 0)

/-- A start event, sent in the bulkhead that arms (R135, R137). -/
def startEntry (s : State) (key inst gang : Nat) (tag : W64 × W32) (sender : W32) (bh : Nat) : QEntry :=
  { tagt := tag.1, tagm := tag.2, sender := sender, route := BitVec.ofNat 24 (ridOf key),
    sendt := BitVec.ofNat 32 (s.ns bh), payload := BitVec.ofNat 32 gang ++ BitVec.ofNat 32 inst }

/-- What arming finds: the gang's reactors ready to be placed, or the status that stops it, the first in the order of
R135: 3, 11, 4, 6, 7, 8. -/
def armPlan (s : State) (part rec : Nat) (r : LRec) : Except Nat (List Plan × List (Nat × Reactor)) :=
  let plans := r.cores.map (planCore s r)
  let ps := plans.filterMap id
  let gang := (s.pt part).gangCtr.toNat
  let keys := newKeys s ps []
  let news := ps.zipIdx.map fun p => newReactor r part rec gang p.2 p.1
  let bound := (keys.zip news).map fun k => r.conns.map (bindConn s part rec k.2.inst k.1 keys)
  let errs := bound.flatMap fun l => l.filterMap fun c => match c with
    | .error e => some e
    | .ok _ => none
  let coreAt (t : Nat) : Nat := match (keys.zip news).find? fun k => k.1 == t with
    | some k => k.2.core
    | none => (s.re t).core
  let conns := bound.map fun l => l.filterMap fun c => match c with
    | .ok c => some { c with tcore := coreAt c.target }
    | .error _ => none
  let reacs := (keys.zip news).zip conns |>.map fun e => (e.1.1, { e.1.2 with conns := e.2 })
  let need (t : Nat) : Nat := ((conns.flatMap id).filter fun c => c.valid && c.target == t).length
  let spareOf (t : Nat) : Nat := match reacs.find? fun e => e.1 == t with
    | some e => e.2.spares
    | none => (s.re t).spares
  let short := (conns.flatMap id).any fun c => c.valid && spareOf c.target < need c.target
  if plans.any (·.isNone) || short then .error 3
  else if r.hostrx && r.cores.any fun c => s.reac.any fun e => e.2.core == c && e.2.hostrx then .error 11
  else if ps.any (planClash s) then .error 4
  else if errs.contains 6 then .error 6
  else if errs.contains 7 then .error 7
  else if errs.contains 8 then .error 8
  else .ok (ps, reacs.map fun e => (e.1, { e.2 with spares := e.2.spares - need e.1 }))

/-- What arming a record of a bulkhead's partition would place, `none` where it stops with a status. -/
def armPlans (s : State) (bh rec : Nat) : List Plan :=
  match recordPa s bh rec with
  | none => []
  | some pa =>
    match (readRecord s bh pa).2 with
    | .error _ => []
    | .ok (r, _) =>
      if !r.placed s (s.partOf bh) then []
      else match armPlan s (s.partOf bh) rec r with
        | .error _ => []
        | .ok (ps, _) => ps

/-- The banks of a plan that arming rewrites: LAYOUT, SWZ or TM changes (R47). -/
def Plan.rewrites (s : State) (p : Plan) : List Nat :=
  (p.banks.filter fun b => !b.2.2 && (s.bfmt p.core b.1).extractLsb' 0 11 != b.2.1.extractLsb' 0 11).map (·.1)

/-- Arms record `rec` for a bulkhead's partition, its start events tagged and sent as given, by a reactor's larm where one arms:
the status (Table 12-6) and the gang id. Start events are indexed with the arming; `quiet` leaves them to the replay feed (R409). -/
def arm (bh rec : Nat) (tag : W64 × W32) (sender : W32) (by_ : Option Nat) (quiet : Bool) (s : State) : State × Nat × Nat :=
  let part := s.partOf bh
  let fail (st : Nat) (s : State) : State × Nat × Nat :=
    (s.modPt part fun p => { p with lastStatus := Map.set p.lastStatus rec (BitVec.ofNat 4 st),
                                    failed := rec :: p.failed.filter (· != rec) }, st, 0)
  match recordPa s bh rec with
  | none => (s, 1, 0)
  | some pa =>
    let (s, read) := readRecord s bh pa
    match read with
    | .error e => fail e s
    | .ok (r, inits) =>
      if !r.placed s part then fail 2 s
      else match armPlan s part rec r with
        | .error e => fail e s
        | .ok (plans, reacs) =>
          let gang := (s.pt part).gangCtr.toNat
          let keys := reacs.map (·.1)
          let s := s.modPt part fun p =>
            { p with gangCtr := p.gangCtr + 1, failed := p.failed.filter (· != rec),
                     lastStatus := Map.set p.lastStatus rec 0, gangs := { record := rec, id := gang, keys := keys } :: p.gangs }
          let s := plans.foldl (fun s p => layInstance r p inits s) s
          -- entries of older targets that the new connections own
          let s := (reacs.flatMap fun e => e.2.conns).foldl (fun s c =>
            if c.valid && s.hasRe c.target then s.modRe c.target fun x => { x with spares := x.spares - 1 } else s) s
          let s := { s with reac := reacs.foldl (fun m e => Map.set m e.1 e.2) s.reac }
          let s := if quiet then s else reacs.foldl (fun s e =>
            indexEntry e.1 (startEntry s e.1 e.2.inst gang tag sender bh) (.start by_) false s) s
          let s := keys.foldl (fun s k => s.modRe k fun x => { x with started := true }) s
          let s := refreshDmax keys s
          ((keys.map fun k => devOfBh (bhOfReac k)).eraseDups.foldl (fun s d => evalDev d s) s, 0, gang)

/-- lpatch on a record: the status (R245); the watchpoints see the write (R337). -/
def patchRecord (bh rec word : Nat) (v : W64) (s : State) : State × Nat :=
  match recordPa s bh rec with
  | none => (s, 1)
  | some pa =>
    let bs := leBytes 8 v.toNat
    ((watchHit (recordAgent s bh) false true (pa + 0xC0 + 8 * word) 8 bs s).put (pa + 0xC0 + 8 * word) bs, 0)

/-- The value of lstat (R245). (log 6, PRESUMED) -/
def recordStat (s : State) (bh rec : Nat) : Nat :=
  match recordPa s bh rec with
  | none => 0x10
  | some _ =>
    let p := s.pt (s.partOf bh)
    let live := (((p.gangs.filter fun g => g.record == rec).flatMap (·.keys)).filter s.hasRe).length
    (if p.failed.contains rec then 2 else 1) + 16 * (Map.get 0 p.lastStatus rec).toNat + 256 * live

/-! ### Disarming (R138) -/

/-- Of the gangs of a record and id, the latest armed that is being disarmed; ids repeat after 2^20 armings, and where RUN has started
anew (R134, R136). (log 69, DESIGN CHOICE) -/
def gangGoing (s : State) (part gang rec : Nat) : Option Gang :=
  (s.pt part).gangs.find? fun g => g.record == rec && g.id == gang && g.going
/-- Of them, the one that a disarming names: the latest armed of those that are not being disarmed. (log 69, DESIGN CHOICE) -/
def gangLive (s : State) (part gang rec : Nat) : Option Gang :=
  (s.pt part).gangs.find? fun g => g.record == rec && g.id == gang && !g.going

/-- The record that the sender of each event of an activation which waits to run again gets (R138); its entries' units have gone
back at its dispatch. -/
def discardAct (core : Nat) (a : Act) (s : State) : State :=
  ((if a.joinq.isEmpty then [a.q] else a.joinq).zip a.from_).foldl (fun s e => discardTo e.2 14 (core * 4) e.1 s) s

/-- Discards what waits at an instance (step 2): every entry, and the activations formed but not dispatched or to run again. -/
def dropInstance (r : Nat) (s : State) : State :=
  if !s.hasRe r then s
  else
  let s := match (s.re r).pend with
    | none => s
    | some p => dropXlate r p.act (if p.slots.isEmpty then discardAct (s.re r).core p.act s else s)
  let s := (s.re r).requeued.foldl (fun s p => if p.slots.isEmpty then discardAct (s.re r).core p.act s else s) s
  let s := (s.re r).entries.foldl (fun s e => discardTo e.owner.sender 14 ((s.re r).core * 4) e.q (freeEntry r e.slot s)) s
  s.modRe r fun x => { x with pend := none, requeued := [], disarming := true
                              st := match x.st with
                                | .xlate | .pwait | .ready | .hold | .idle | .stop => .idle
                                | e => e }

/-- Steps 1 and 2 for a gang, by its issuer or a port; the release follows as DISARM_RELEASE. (log 69, DESIGN CHOICE) -/
def disarm (part gang rec : Nat) (ts port : Option Nat) (s : State) : State :=
  match gangLive s part gang rec with
  | none => s
  | some g =>
    let s := s.modPt part fun p => { p with gangs := p.gangs.map fun (x : Gang) => if x = g then { x with going := true } else x }
    (g.keys.foldl (fun s r => dropInstance r s) s).emit (.disarm part gang rec ts port)

/-- What still holds an instance's release: a running activation, an engine command, or an event in the send queue, which its
connection must outlive. (log 69, DESIGN CHOICE) -/
def instanceBusy (s : State) (r : Nat) : Bool :=
  (s.re r).runTs.isSome || engines s r ||
    (s.thr.any fun t => t.2.act.any fun a => a.reactor == r) ||
    s.flight.any fun e => match e.2 with
      | .event m => m.reactor == r
      | .move q .. => q == r
      | _ => false

/-- The banks that reactors of a list alone occupy on the core of one of them: regions, control block, queue or rings (R138). -/
def soleBanks (s : State) (rs : List Nat) (r : Nat) : List Nat :=
  let core := (s.re r).core
  let others := usedOn { s with reac := s.reac.filter fun e => !rs.contains e.1 } core
  (((usedOn s core).flatMap fun u => banksOf u.1 u.2).eraseDups.filter fun b => b < 12).filter fun b =>
    !others.any fun u => (banksOf u.1 u.2).contains b

/-- Step 3 for one instance of a gang: its reactor, forwarding entries and banks are released; connections to it are dead. -/
def releaseInstance (r : Nat) (s : State) : State :=
  if !s.hasRe r then s
  else
  let x := s.re r
  let banks := soleBanks s [r] r
  let hits (c : Conn) : Bool := c.stands && c.live s == r
  let s := { s with dev := s.dev.map fun (e : Nat × Device) => (e.1, { e.2 with moved := e.2.moved.filter fun (m : Nat × Nat) => m.2 != r })
                    reac := (Map.del s.reac r).map fun (e : Nat × Reactor) =>
    (e.1, { e.2 with conns := e.2.conns.map fun (c : Conn) => if hits c then { c with dead := true } else c }) }
  let s := { s with clu := s.clu.map fun (e : Nat × Cluster) => (e.1, { e.2 with fwd := e.2.fwd.filter fun (w : Nat × Fwd) =>
    !(w.2.nrid == ridOf r && w.2.ncoord == x.core * 4) }) }
  banks.foldl (fun s b => setBfmt x.core b 0 s) s

end Sys2Proof.Machine
end

