-- ==== Sys2Proof/Machine/Float.lean ====
section
/-! DEFINITION. Float.lean: the floating formats, exact values, rounding and its flags, and conversions (R248 to R259). -/

namespace Sys2Proof.Machine

/-- A binary floating-point format (Table 13-2): exponent and mantissa field widths; `inf` is false for E4M3. -/
structure Fmt where
  eb : Nat
  mb : Nat
  inf : Bool := true
  deriving DecidableEq, Repr

def fp32 : Fmt := ⟨8, 23, true⟩
def fp16 : Fmt := ⟨5, 10, true⟩
def bf16 : Fmt := ⟨8, 7, true⟩
def e4m3 : Fmt := ⟨4, 3, false⟩
def e5m2 : Fmt := ⟨5, 2, true⟩

/-- The format of a type code (Table 08-11). -/
def fmtOf (ty : Nat) : Fmt := match ty with
  | 2 => fp16
  | 3 => bf16
  | 5 => e4m3
  | 6 => e5m2
  | _ => fp32

def Fmt.width (f : Fmt) : Nat := 1 + f.eb + f.mb
def Fmt.bias (f : Fmt) : Nat := 2 ^ (f.eb - 1) - 1
/-- The exponent of the smallest normal, and of the spacing of subnormals. -/
def Fmt.emin (f : Fmt) : Int := 1 - f.bias
def Fmt.qmin (f : Fmt) : Int := f.emin - f.mb
/-- The pattern of the largest finite value. -/
def Fmt.maxFin (f : Fmt) : Nat := if f.inf then (2 ^ f.eb - 1) * 2 ^ f.mb - 1 else 2 ^ (f.eb + f.mb) - 2
/-- The pattern of +∞, and the canonical NaN (Table 13-3). -/
def Fmt.infBits (f : Fmt) : Nat := (2 ^ f.eb - 1) * 2 ^ f.mb
def Fmt.nanBits (f : Fmt) : Nat := if f.inf then f.infBits + 2 ^ (f.mb - 1) else 2 ^ (f.eb + f.mb) - 1
def Fmt.signBit (f : Fmt) (s : Bool) : Nat := if s then 2 ^ (f.eb + f.mb) else 0

/-- What a pattern stands for: a NaN (signalling or not), an infinity, or (-1)^s × m × 2^e exactly. -/
inductive FVal where
  | nan (sig : Bool)
  | inf (s : Bool)
  | fin (s : Bool) (m : Nat) (e : Int)
  deriving DecidableEq, Repr

/-- The value of a pattern (R249). -/
def Fmt.decode (f : Fmt) (v : Nat) : FVal :=
  let s := v.testBit (f.eb + f.mb)
  let e := v / 2 ^ f.mb % 2 ^ f.eb
  let m := v % 2 ^ f.mb
  if f.inf && e == 2 ^ f.eb - 1 then (if m = 0 then .inf s else .nan (!m.testBit (f.mb - 1)))
  else if !f.inf && e == 2 ^ f.eb - 1 && m == 2 ^ f.mb - 1 then .nan false
  else if e = 0 then .fin s m f.qmin
  else .fin s (m + 2 ^ f.mb) (f.qmin + (e - 1))

/-- The bits of a number. -/
def bitLen (n : Nat) : Nat := if n = 0 then 0 else n.log2 + 1

/-! ### Exact dyadic numbers -/

/-- n × 2^e. -/
structure Dy where
  n : Int
  e : Int
  deriving DecidableEq, Repr

/-- A number brought to a lower or equal exponent. -/
def Dy.at (a : Dy) (e : Int) : Int := a.n * 2 ^ (a.e - e).toNat
def Dy.add (a b : Dy) : Dy := let e := min a.e b.e; ⟨a.at e + b.at e, e⟩
def Dy.neg (a : Dy) : Dy := ⟨-a.n, a.e⟩
def Dy.mul (a b : Dy) : Dy := ⟨a.n * b.n, a.e + b.e⟩
def Dy.abs (a : Dy) : Dy := ⟨a.n.natAbs, a.e⟩
def Dy.lt (a b : Dy) : Bool := let e := min a.e b.e; a.at e < b.at e
def Dy.eq (a b : Dy) : Bool := let e := min a.e b.e; a.at e == b.at e
/-- The exact value of a finite operand. -/
def dyOf (s : Bool) (m : Nat) (e : Int) : Dy := ⟨if s then -(m : Int) else m, e⟩

/-! ### Rounding (R255) -/

/-- A delivered pattern and its flags. -/
abbrev FRes := Nat × FFlags

def nvOnly : FFlags := { nv := true }

/-- The overflow result of Table 13-5. `rm` is 0 RNE, 1 RTZ, 2 RDN, 3 RUP. -/
def overflow (f : Fmt) (rm : Nat) (sat s : Bool) : Nat :=
  if sat then f.signBit s + f.maxFin
  else if !f.inf then f.nanBits
  else if rm = 0 ∨ (rm = 2 ∧ s) ∨ (rm = 3 ∧ !s) then f.signBit s + f.infBits
  else f.signBit s + f.maxFin

/-- Rounds (-1)^s × m × 2^e, or a little more in magnitude when `sticky`, into a format (R255, Table 13-6). -/
def roundTo (f : Fmt) (rm : Nat) (sat : Bool) (s : Bool) (m : Nat) (e : Int) (sticky : Bool := false) : FRes :=
  if m = 0 ∧ !sticky then (f.signBit s, {})
  else
    let top : Int := e + bitLen m - 1
    let q : Int := max top f.emin - f.mb
    let d := (q - e).toNat
    let keep := if e ≤ q then m >>> d else m <<< (e - q).toNat
    let rem := if e ≤ q then m % 2 ^ d else 0
    let inexact := rem != 0 || sticky
    let half := 2 ^ (d - 1)
    let up := match rm with
      | 0 => e < q && (half < rem || (rem == half && (sticky || keep % 2 == 1)))
      | 2 => s && inexact
      | 3 => !s && inexact
      | _ => false
    let c := keep + up.toNat
    -- the pattern, were the exponent range unbounded above
    let bits := ((q - f.qmin).toNat) * 2 ^ f.mb + c
    if f.maxFin < bits then (overflow f rm sat s, { of := true, nx := true })
    else (f.signBit s + bits, { nx := inexact, uf := inexact && bits < 2 ^ f.mb })

def roundDy (f : Fmt) (rm : Nat) (sat : Bool) (a : Dy) : FRes := roundTo f rm sat (a.n < 0) a.n.natAbs a.e

/-- The sign of an exact zero sum (R252). -/
def zeroSign (rm : Nat) (s1 s2 : Bool) : Bool := if s1 = s2 then s1 else rm = 2

def isSig : FVal → Bool
  | .nan true => true
  | _ => false
def isNan : FVal → Bool
  | .nan _ => true
  | _ => false

/-- A NaN result: canonical, with NV when an operand is signalling or the operation is invalid. -/
def nanRes (f : Fmt) (nv : Bool) : FRes := (f.nanBits, { nv := nv })

/-! ### Operations (R277) -/

def faddV (f : Fmt) (rm : Nat) (a b : FVal) : FRes :=
  match a, b with
  | .inf s, .inf t => if s = t then (f.signBit s + f.infBits, {}) else nanRes f true
  | .inf s, .fin .. => (f.signBit s + f.infBits, {})
  | .fin .., .inf s => (f.signBit s + f.infBits, {})
  | .fin s m e, .fin t n k =>
    let r := (dyOf s m e).add (dyOf t n k)
    if r.n = 0 then (f.signBit (zeroSign rm s t), {}) else roundDy f rm false r
  | _, _ => nanRes f (isSig a || isSig b)

def fnegV : FVal → FVal
  | .nan s => .nan s
  | .inf s => .inf (!s)
  | .fin s m e => .fin (!s) m e

/-- The exact product; `none` for 0 × ∞. -/
def fmulX (a b : FVal) : Option FVal :=
  match a, b with
  | .inf s, .inf t => some (.inf (s ^^ t))
  | .inf s, .fin t n _ => if n = 0 then none else some (.inf (s ^^ t))
  | .fin t n _, .inf s => if n = 0 then none else some (.inf (s ^^ t))
  | .fin s m e, .fin t n k => some (.fin (s ^^ t) (m * n) (e + k))
  | _, _ => some (.nan (isSig a || isSig b))

/-- Rounds an exact value that is not the sum of two. -/
def roundV (f : Fmt) (rm : Nat) (v : FVal) : FRes :=
  match v with
  | .nan s => nanRes f s
  | .inf s => (f.signBit s + f.infBits, {})
  | .fin s m e => roundTo f rm false s m e

def fmulV (f : Fmt) (rm : Nat) (a b : FVal) : FRes :=
  match fmulX a b with
  | none => nanRes f true
  | some v => roundV f rm v

/-- vfma: one rounding; 0 × ∞ is invalid whatever c holds. -/
def fmaV (f : Fmt) (rm : Nat) (a b c : FVal) : FRes :=
  match fmulX a b with
  | none => nanRes f true
  | some v => if isNan v || isNan c then nanRes f (isSig v || isSig c) else faddV f rm v c

/-- 1 / a (Table 14-3). -/
def frcpV (f : Fmt) (rm : Nat) (a : FVal) : FRes :=
  match a with
  | .nan s => nanRes f s
  | .inf s => (f.signBit s, {})
  | .fin s m e =>
    if m = 0 then (f.signBit s + f.infBits, { dz := true })
    else
      let k := bitLen m + 64
      roundTo f rm false s (2 ^ k / m) (-k - e) (2 ^ k % m != 0)

/-- The integer square root, bit by bit from 2^(n-1) down. -/
def isqrt (x : Nat) : Nat → Nat → Nat
  | 0, r => r
  | n + 1, r => let t := r + 2 ^ n; isqrt x n (if t * t ≤ x then t else r)

/-- 1 / √a (Table 14-3). -/
def frsqV (f : Fmt) (rm : Nat) (a : FVal) : FRes :=
  match a with
  | .nan s => nanRes f s
  | .inf s => if s then nanRes f true else (0, {})
  | .fin s m e =>
    if m = 0 then (f.signBit s + f.infBits, { dz := true })
    else if s then nanRes f true
    else
      let (m, e) := if e % 2 = 0 then (m, e) else (2 * m, e - 1)
      let k := bitLen m + 64
      let r := isqrt (2 ^ (2 * k) / m) (k + 1) 0
      roundTo f rm false false r (-k - e / 2) (r * r * m != 2 ^ (2 * k))

/-- floor(ln 2 × 2^320). -/
def ln2 : Nat := 0xb17217f7d1cf79abc9e3b39803f2f6af40f343267298b62d8a0d175b8baafa2be7b876206debac98

/-- 2^(x / 2^320) × 2^320 for 0 ≤ x < 2^320, by the exponential series; the error is far below any rounding distance of
the formats (log 7, DEDUCED). -/
def exp2Series (t : Nat) : Nat → Nat → Nat → Nat → Nat
  | 0, _, _, acc => acc
  | f + 1, k, term, acc => exp2Series t f (k + 1) (term * t / (2 ^ 320 * (k + 1))) (acc + term)

/-- 2^a (Table 14-3). (log 7, DEDUCED) -/
def fexp2V (f : Fmt) (rm : Nat) (a : FVal) : FRes :=
  match a with
  | .nan s => nanRes f s
  | .inf s => if s then (0, {}) else (f.infBits, {})
  | .fin s m e =>
    if m = 0 then roundTo f rm false false 1 0
    else if e + bitLen m > 12 then roundTo f rm false false 1 (if s then -5000 else 5000) true
    else
      let x := dyOf s m e
      let n : Int := if 0 ≤ e then x.n * 2 ^ e.toNat else x.n / 2 ^ (-e).toNat
      let fr : Nat := if 0 ≤ e then 0 else (x.n % 2 ^ (-e).toNat).toNat
      if fr = 0 then roundTo f rm false false 1 n
      else
        let t := (fr * 2 ^ 320 / 2 ^ (-e).toNat) * ln2 / 2 ^ 320
        roundTo f rm false false (exp2Series t 96 0 (2 ^ 320) 0) (n - 320) true

/-- The first binary digits of log2 y, for y in [1, 2) at 2^-400 (log 7, DEDUCED). -/
def log2Digits : Nat → Nat → Nat → Nat
  | 0, _, acc => acc
  | n + 1, y, acc =>
    let z := y * y / 2 ^ 400
    if 2 ^ 401 ≤ z then log2Digits n (z / 2) (2 * acc + 1) else log2Digits n z (2 * acc)

/-- log2 a (Table 14-3). -/
def flog2V (f : Fmt) (rm : Nat) (a : FVal) : FRes :=
  match a with
  | .nan s => nanRes f s
  | .inf s => if s then nanRes f true else (f.infBits, {})
  | .fin s m e =>
    if m = 0 then (f.signBit true + f.infBits, { dz := true })
    else if s then nanRes f true
    else
      let top := e + bitLen m - 1
      if 2 ^ (bitLen m - 1) = m then roundTo f rm false (top < 0) top.natAbs 0
      else
        let total := top * 2 ^ 160 + log2Digits 160 (m * 2 ^ 400 / 2 ^ (bitLen m - 1)) 0
        if 0 ≤ total then roundTo f rm false false total.natAbs (-160) true
        else roundTo f rm false true (total.natAbs - 1) (-160) true

/-- The order of two values that are not NaN; zeros are equal. -/
def fltV (a b : FVal) : Bool :=
  match a, b with
  | .inf s, .inf t => s && !t
  | .inf s, _ => s
  | _, .inf t => !t
  | .fin s m e, .fin t n k => (dyOf s m e).lt (dyOf t n k)
  | _, _ => false
def feqV (a b : FVal) : Bool :=
  match a, b with
  | .inf s, .inf t => s == t
  | .fin s m e, .fin t n k => (dyOf s m e).eq (dyOf t n k)
  | _, _ => false

/-- vfmin and vfmax on patterns (R278). -/
def fminmax (f : Fmt) (mx : Bool) (a b : Nat) : FRes :=
  let va := f.decode a
  let vb := f.decode b
  let fl : FFlags := { nv := isSig va || isSig vb }
  if isNan va && isNan vb then (f.nanBits, fl)
  else if isNan va then (b, fl)
  else if isNan vb then (a, fl)
  else
    let less := if feqV va vb then a.testBit (f.eb + f.mb) && !b.testBit (f.eb + f.mb) else fltV va vb
    (if less ^^ mx then a else b, fl)

/-! ### Conversions (R258, R259) -/

/-- Whether Table 13-7 calls a pair exact: a narrower format into fp32, or an 8-bit one into a 16-bit one. -/
def Fmt.exactIn (src dst : Fmt) : Bool := src.width < dst.width

/-- A float to another float format (Table 13-7): an exact pair keeps an infinity, whatever `sat` asks. -/
def cvtFF (src f : Fmt) (rm : Nat) (sat : Bool) (v : FVal) : FRes :=
  match v with
  | .nan s => nanRes f s
  | .inf s =>
    if sat && !src.exactIn f then (f.signBit s + f.maxFin, { of := true, nx := true })
    else if f.inf then (f.signBit s + f.infBits, {})
    else nanRes f true
  | .fin s m e => roundTo f rm sat s m e

/-- A value rounded to an integer by a mode. -/
def roundInt (rm : Nat) (a : Dy) : Int × Bool :=
  if 0 ≤ a.e then (a.n * 2 ^ a.e.toNat, false)
  else
    let p : Int := 2 ^ (-a.e).toNat
    let fl := a.n / p
    let r := a.n % p
    let up := match rm with
      | 0 => p < 2 * r || (2 * r == p && fl % 2 == 1)
      | 1 => r != 0 && a.n < 0
      | 3 => r != 0
      | _ => false
    (if up then fl + 1 else fl, r != 0)

/-- The range of an integer of n bits (R247). -/
def intLo (signed : Bool) (n : Nat) : Int := if signed then -(2 ^ (n - 1)) else 0
def intHi (signed : Bool) (n : Nat) : Int := if signed then 2 ^ (n - 1) - 1 else 2 ^ n - 1

/-- A float to an integer of n bits. -/
def cvtFI (signed : Bool) (n rm : Nat) (v : FVal) : FRes :=
  match v with
  | .nan _ => (0, nvOnly)
  | .inf s => (wrap n (if s then intLo signed n else intHi signed n), nvOnly)
  | .fin s m e =>
    -- far outside the range, the bound
    if m ≠ 0 ∧ e + bitLen m > 70 then (wrap n (if s then intLo signed n else intHi signed n), nvOnly)
    else
      let (i, nx) := roundInt rm (dyOf s m e)
      if i < intLo signed n then (wrap n (intLo signed n), nvOnly)
      else if intHi signed n < i then (wrap n (intHi signed n), nvOnly)
      else (wrap n i, { nx := nx })

/-- An integer to a float. -/
def cvtIF (f : Fmt) (rm : Nat) (sat : Bool) (i : Int) : FRes := roundTo f rm sat (i < 0) i.natAbs 0

/-- A float to E8M0 (R259). -/
def cvtFE (v : FVal) : FRes :=
  match v with
  | .nan s => (0xFF, { nv := s })
  | .inf _ => (0xFE, { of := true, nx := true })
  | .fin _ m e =>
    let top := e + bitLen m - 1
    if m = 0 ∨ top < -127 then (0, { uf := true, nx := true })
    else ((top + 127).toNat, { nx := 2 ^ (bitLen m - 1) != m })

/-- The value of an E8M0 code (R253). -/
def e8m0Val (v : Nat) : FVal := if v % 256 = 0xFF then .nan false else .fin false 1 ((v % 256 : Nat) - 127)

/-! ### Codebooks (R254, R283) -/

/-- Entry i of a codebook of 32 bytes as a number, as BF16. -/
def cbEntry (cb i : Nat) : Nat := cb / 2 ^ (16 * i) % 65536

/-- The distance from y to an entry's value: `none` where only one side is infinite. -/
def cbDist (y c : FVal) : Option Dy :=
  match y, c with
  | .fin s m e, .fin t n k => some ((dyOf s m e).add (dyOf t n k).neg).abs
  | _, _ => if feqV y c then some ⟨0, 0⟩ else none

/-- The nearest code to a value that is not NaN, lowest index first (R283), and whether the entry differs from it. -/
def nearest (cb : Nat) (y : FVal) : Nat × Bool :=
  let closer (a b : Option Dy) : Bool := match a, b with
    | some x, some z => x.lt z
    | some _, none => true
    | none, _ => false
  let best := (List.range 16).foldl (fun (m : Option (Nat × Option Dy)) i =>
    let c := bf16.decode (cbEntry cb i)
    if isNan c then m
    else match m with
      | none => some (i, cbDist y c)
      | some (j, d) => if closer (cbDist y c) d then some (i, cbDist y c) else some (j, d)) none
  let i := (best.map (·.1)).getD 0
  (i, !feqV y (bf16.decode (cbEntry cb i)))

/-- A value scaled by a power of two, exactly. -/
def scaleV (v : FVal) (k : Int) : FVal :=
  match v with
  | .fin s m e => .fin s m (e + k)
  | v => v

end Sys2Proof.Machine
end

