-- ==== Sys2Proof/Machine/Matrix.lean ====
section
/-! DEFINITION. Matrix.lean: the matrix array and the copy engine (R287 to R311), codebooks and block scales (R312 to R320),
and conversion on copies (R57). A command's checks are made at issue; its effect and its completion are made together by
ENGINE_COMPLETION, in sequence-number order (R116, R117; log 8, DEDUCED). -/

namespace Sys2Proof.Machine

/-! ### Fields (Tables 08-9, 15-2) -/

def xtLen (x : XT) : Nat := extLen x.lit
def xtK (x : XT) : Nat := if x.k = 0 then 4096 else x.k.toNat
def xtEv (x : XT) : Bool := x.ctl.getLsbD 3
/-- The accumulator that a field of file 0b11 names. -/
def accNo (f : Slot) : Nat := f.start.toNat % 4
def addrA (x : XT) (s : State) : Nat := readSlices s.me.r.scalar (rngOf x.a)
def addrB (x : XT) (s : State) : Nat := readSlices s.me.r.scalar (rngOf x.b)
/-- Operand b: a scalar, or the low bits of a literal that its width field gives (R160; jarom-as writes a width of 16, R297). -/
def xtB (x : XT) (s : State) : Nat := match x.lit with
  | some w => w.toNat % 2 ^ (4 * x.b.width)
  | none => readZ x.b none s

/-! ### Accumulators (R288, R289) -/

def Acc.el (a : Acc) (i : Nat) : Nat := (a.elems.extractLsb' (32 * i) 32).toNat
def Acc.sel (a : Acc) (masks : Bool) (i : Nat) : Bool :=
  !masks || (a.rows.getLsbD (i / 32) && a.cols.getLsbD (i % 32))
/-- Rows, or columns, that feed a selected element. -/
def Acc.rowsRead (a : Acc) (masks : Bool) : List Nat :=
  (List.range 32).filter fun r => !masks || (a.rows.getLsbD r && a.cols != 0)
def Acc.colsRead (a : Acc) (masks : Bool) : List Nat :=
  (List.range 32).filter fun c => !masks || (a.cols.getLsbD c && a.rows != 0)
/-- Values packed as 32-bit elements, and bits packed, the first lowest. -/
def packWords (l : List Nat) : Nat := l.foldr (fun v t => v % 2 ^ 32 + 2 ^ 32 * t) 0
def packBits (l : List Bool) : Nat := l.foldr (fun v t => v.toNat + 2 * t) 0
/-- The accumulator whose element i and poison bit are given by a function of i. -/
def Acc.remake (a : Acc) (l : List (Nat × Bool)) : Acc :=
  { a with elems := BitVec.ofNat 32768 (packWords (l.map (·.1))), poison := BitVec.ofNat 1024 (packBits (l.map (·.2))) }
def Acc.list (a : Acc) : List (Nat × Bool) := (List.range 1024).map fun i => (a.el i, a.poison.getLsbD i)

def Thread.ac (t : Thread) (n : Nat) : Acc := t.acc[n]?.getD {}
def State.setAcc (s : State) (u n : Nat) (a : Acc) : State := s.modTh u fun t => { t with acc := t.acc.set! n a }

/-- Whether a command of a thread set that names an accumulator is in flight, of any kind or an mrest only (R291). -/
def accBusy (s : State) (u n : Nat) (restOnly : Bool) : Bool :=
  s.flight.any fun e => match e.2 with
    | .engine ts _ true _ _ _ _ c _ => ts == u && c.op != 0xB9 && accNo c.x.d == n && (!restOnly || c.op == 0xBC)
    | _ => false

/-! ### Tiles at issue (R294, R295, Table 15-1) -/

/-- Bits of an element of a type: sint is INT8 in mma and cpm (`mm`), by layout in mtld and mst. -/
def typeBits (ty lay : Nat) (mm : Bool) : Nat := match ty with
  | 0 => if mm then 8 else if lay = 1 then 8 else if lay = 2 then 16 else 32
  | 2 | 3 => 16
  | 4 => 32
  | 7 => 4
  | _ => 8

/-- The layouts that a type accepts. -/
def typeTakes (ty : Nat) (mm : Bool) (lay : Nat) : Bool := match ty with
  | 0 => lay == 0 || lay == 1 || (!mm && (lay == 2 || lay == 3))
  | 2 => lay == 0 || lay == 0x11
  | 3 => lay == 0 || lay == 0x12
  | 4 => lay == 0 || lay == 0x10
  | 5 => lay == 0 || lay == 0x13
  | 6 => lay == 0 || lay == 0x14
  | _ => lay == 0x15

/-- The core and offset of a tile address: local or cluster window, banks 0 to 11. -/
def tilePlace (u va : Nat) : Option (Nat × Nat) :=
  let lo := va % 2 ^ 60
  let at? (core : Nat) : Option (Nat × Nat) := if lo % 2 ^ 19 < 0x60000 then some (core, lo % 2 ^ 19) else none
  if va / 2 ^ 60 = 1 ∧ lo < 2 ^ 19 then at? (coreOf u)
  else if va / 2 ^ 60 = 2 ∧ lo < 2 ^ 27 then at? (cluOf u * 256 + lo / 2 ^ 19)
  else none

/-- The first failing address of a tile's rows, when one leaves banks 0 to 11 of its core. (log 19, DEDUCED) -/
def tileFails (u va pitch len : Nat) (rows : List Nat) : Option Nat :=
  match tilePlace u va with
  | none => some va
  | some (_, off) => (rows.find? fun r => 0x60000 < off + r * pitch + len).map fun r => va + max (r * pitch) (0x60000 - off)

def pitchOk (p : Nat) : Bool := p % 16 == 0 && 16 ≤ p && p ≤ 524272

def layoutAt (s : State) (core off : Nat) : Nat := ((s.bfmt core (off / 0x8000)).extractLsb' 0 8).toNat

/-- The offset of the first byte that a tile's rows read: of the tile itself where none is read. -/
def tileStart (off pitch : Nat) (rows : List Nat) : Nat := off + (rows.head?.getD 0) * pitch
/-- The layout that gives the element size of an mtld or mst tile: that of the bank of the first row read (Table 15-1). -/
def tileLay (s : State) (va pitch : Nat) (rows : List Nat) : Nat :=
  match tilePlace s.cur va with
  | some (core, off) => layoutAt s core (tileStart off pitch rows)
  | none => 0

/-- The codebook of a bank format. -/
def bookOf (s : State) (core : Nat) (f : W64) : Table :=
  let off := (f.extractLsb' 51 13).toNat * 64
  { core := core, off := off, ok := layoutAt s core off == 0x17 }

/-- The bytes of a scale row for nb blocks (R317). -/
def scalePitch (nb : Nat) : Nat := 16 * ((nb + 15) / 16)

/-- The scale array of a bank format, for the rows read and nb blocks. -/
def scaleOf (s : State) (core : Nat) (f : W64) (rows : List Nat) (nb : Nat) : Table :=
  let off := (f.extractLsb' 35 13).toNat * 64
  { core := core, off := off,
    ok := layoutAt s core off == 0x16 &&
      rows.all fun i => (off + i * scalePitch nb + nb - 1) / 0x8000 == off / 0x8000 }

/-- A tile whose address has been checked: rows of `len` bytes, a type, and nb blocks of scales. Every bank that a row read
touches accepts the type, at one element size; the codebook and the scales are those that the bank of the first row read
names. (log 71, DESIGN CHOICE) -/
def tileAt (s : State) (va pitch len : Nat) (rows : List Nat) (ty : Nat) (mm : Bool) (nb : Nat) : Tile :=
  let (core, off) := (tilePlace s.cur va).getD (0, 0)
  let first := tileStart off pitch rows
  let lay := layoutAt s core first
  let f := s.bfmt core (first / 0x8000)
  let banks := (rows.flatMap fun r => (List.range ((off % 0x8000 + r * pitch % 0x8000 + len) / 0x8000 + 2)).map fun i =>
    min ((off + r * pitch) / 0x8000 + i) ((off + r * pitch + len - 1) / 0x8000)).eraseDups
  { va := va, core := core, off := off, pitch := pitch, lay := lay,
    ok := banks.all fun b =>
      let l := layoutAt s core (b * 0x8000)
      typeTakes ty mm l && typeBits ty l mm == typeBits ty lay mm
    book := bookOf s core f, scv := f.getLsbD 34, scale := scaleOf s core f rows nb }

/-! ### Issue (R290, R292) -/

/-- The engine operand trap (Table 19-3). (log 18, DEDUCED) (log 19, DEDUCED) -/
def operandTrap (v : Nat) (s : State) : State := trap 0x0D (BitVec.ofNat 64 v) s

/-- Puts a command in flight under its sequence number. -/
def sendCmd (mat : Bool) (c : Cmd) (s : State) : State :=
  let u := s.cur
  let a := s.act u
  let r := s.re a.reactor
  let q := if mat then r.seqMat else r.seqCopy
  let s := s.modRe a.reactor fun r => if mat then { r with seqMat := q + 1 } else { r with seqCopy := q + 1 }
  s.emit (.engine u a.reactor mat q c.x.ctr.toNat (s.th u).gen a.q.tag { c with
    vis := a.held.filter fun h => if mat then h.visMat else h.visCopy
    beside := a.kind == .trap || a.kind == .page } a.priv)

/-- Issues a command: the tag of its event (R127), room in its counter, and a commit when it writes outside scratch space.
(log 94, DESIGN CHOICE) -/
def issueCmd (mat outside : Bool) (c : Cmd) (s : State) : State :=
  if xtEv c.x && (s.act s.cur).q.tag.2.toNat == 2 ^ 32 - 1 then trap 0x09 0 s
  else counted c.x.ctr.toNat (fun s =>
    let go (s : State) : State :=
      let s := if c.op = 0xB8 then
          let n := s.nextId
          sendCmd true { c with dep := some n } (sendCmd false c s)
        else sendCmd mat c s
      advance (xtLen c.x) ((countEv s.cur 0x06 1 s).incC s.cur c.x.ctr.toNat)
    if outside then committed go s else go s) s

/-- Whether a range of a core's scratchpad leaves the scratch space of the issuer's core (R292). -/
def leavesScratch (s : State) (core o n : Nat) : Bool :=
  core != coreOf s.cur || 0x60000 < o + n || s.reac.any fun e =>
    let x := e.2
    let hit (b m : Nat) : Bool := b < o + n && o < b + m
    x.core == core && (hit x.ctl 1024 || hit x.ring (32 * x.depth) || hit x.cq 1024 || hit x.eq 1024 ||
      x.regions.any fun g => hit g.2.1 g.2.2)

/-- Runs of consecutive selected columns: first and number. -/
def colRuns : List Nat → List (Nat × Nat)
  | [] => []
  | c :: cs => match colRuns cs with
    | (d, n) :: rs => if d = c + 1 then (c, n + 1) :: rs else (c, 1) :: (d, n) :: rs
    | [] => [(c, 1)]

/-- Whether an mst of elements of nb bytes writes outside scratch space: by its selected elements only (R289, R292). -/
def mstOutside (s : State) (t : Tile) (nb : Nat) (a : Acc) (masks : Bool) : Bool :=
  (a.rowsRead masks).any fun r =>
    (colRuns ((List.range 32).filter fun j => a.sel masks (32 * r + j))).any fun run =>
      leavesScratch s t.core (t.off + r * t.pitch + run.1 * nb) (run.2 * nb)

/-- A masked command waits for an mrest of its accumulator, whose masks choose the rows that it checks. -/
def masked (x : XT) (body : State → State) (s : State) : State :=
  if x.masks && accBusy s s.cur (accNo x.d) true then waits 10 s else body s

/-- mzero (R299). -/
def execMzero (g : Guard) (x : XT) (s : State) : Out :=
  scalarI g (xtLen x) (issueCmd true false { op := 0xB0, x := x }) s

/-- Cores of the issuer's mesh row (mcA) or column (mcB), or all 256 with both (R296). -/
def castCores (u : Nat) (row col : Bool) : List Nat :=
  let y := idxOf u / 16
  let x := idxOf u % 16
  (if row && col then List.range 256
   else if row then (List.range 16).map (16 * y + ·) else (List.range 16).map (16 * · + x)).map (cluOf u * 256 + ·)

/-- Where a multicast from a core skips receivers: the banks whose layout differs from the holder's (R296). -/
def castSkips (s : State) (holder : Nat) (cores : List Nat) : List (Nat × Nat) :=
  cores.flatMap fun core => ((List.range 16).filter fun b =>
    layoutAt s core (b * 0x8000) != layoutAt s holder (b * 0x8000)).map fun b => (core, b)
/-- The multicasts of a command, judged at issue. -/
def withSkips (s : State) (ha hb : Nat) (c : Cmd) : Cmd :=
  { c with skipA := if c.op = 0xB7 then (if c.x.mcA || c.x.mcB then castSkips s ha (castCores s.cur c.x.mcA c.x.mcB) else [])
                    else if c.x.mcA then castSkips s ha (castCores s.cur true false) else []
           skipB := if c.op != 0xB7 && c.x.mcB then castSkips s hb (castCores s.cur false true) else [] }

/-- Bytes of K elements, and the row pitch of an mma operand (R295). -/
def rowLen (ty k : Nat) : Nat := (k * typeBits ty 0 true + 7) / 8
def rowPitch (ty k : Nat) : Nat := 16 * ((k * typeBits ty 0 true + 127) / 128)

/-- The two operands of an mma, and the trap that stops it. -/
def mmaTiles (x : XT) (va vb : Nat) (s : State) : Except (Nat × Nat) (Tile × Tile) :=
  let a := s.me.ac (accNo x.d)
  let k := xtK x
  let one (ty : Nat) (va : Nat) (rows : List Nat) : Option Nat := tileFails s.cur va (rowPitch ty k) (rowLen ty k) rows
  let ra := a.rowsRead x.masks
  let rb := a.colsRead x.masks
  let ta := x.aty.toNat
  let tb := x.bty.toNat
  match one ta va ra, one tb vb rb with
  | some v, _ => .error (2, v)
  | _, some v => .error (2, v)
  | none, none =>
    if va % 16 ≠ 0 then .error (0x0D, va)
    else if vb % 16 ≠ 0 then .error (0x0D, vb)
    else .ok (tileAt s va (rowPitch ta k) (rowLen ta k) ra ta true ((k + 31) / 32),
              tileAt s vb (rowPitch tb k) (rowLen tb k) rb tb true ((k + 31) / 32))

/-- Whether an mma multicasts a byte: rows that no selected element needs are not read, and not copied (R292, R296). -/
def castsOut (x : XT) (a : Acc) : Bool :=
  (x.mcA && !(a.rowsRead x.masks).isEmpty) || (x.mcB && !(a.colsRead x.masks).isEmpty)

/-- mma (R301). -/
def execMma (g : Guard) (x : XT) (s : State) : Out :=
  scalarI g (xtLen x) (masked x fun s =>
    match mmaTiles x (addrA x s) (addrB x s) s with
    | .error e => trap e.1 (BitVec.ofNat 64 e.2) s
    | .ok t => issueCmd true (castsOut x (s.me.ac (accNo x.d)))
        (withSkips s t.1.core t.2.core { op := 0xB1, x := x, ta := t.1, tb := t.2 }) s) s

/-- mtld (R300). (log 18, DEDUCED) -/
def execMtld (g : Guard) (x : XT) (s : State) : Out :=
  scalarI g (xtLen x) (masked x fun s =>
    let va := addrA x s
    let b := xtB x s
    let p := b % 2 ^ 32
    let a := s.me.ac (accNo x.d)
    let rows := if x.tr then a.colsRead x.masks else a.rowsRead x.masks
    let len := 32 * typeBits x.aty.toNat (tileLay s va p rows) false / 8
    match tileFails s.cur va p len rows with
    | some v => trap 2 (BitVec.ofNat 64 v) s
    | none =>
      if b / 2 ^ 32 ≠ 0 then operandTrap b s
      else if !pitchOk p then operandTrap p s
      else if va % 16 ≠ 0 then operandTrap va s
      else issueCmd true false { op := 0xB2, x := x, ta := tileAt s va p len rows x.aty.toNat false 0 } s) s

/-- mst (R305): b holds the pitch and, with SC or BI, the epilogue block. (log 18, DEDUCED) -/
def execMst (g : Guard) (x : XT) (s : State) : Out :=
  scalarI g (xtLen x) (masked x fun s =>
    let va := addrA x s
    let b := xtB x s
    let p := b % 2 ^ 32
    let ep := b / 2 ^ 32 % 2 ^ 19
    let uses := x.ctl.getLsbD 0 || x.ctl.getLsbD 1
    let rows := (s.me.ac (accNo x.d)).rowsRead x.masks
    let bits := typeBits x.bty.toNat (tileLay s va p rows) false
    let len := 32 * bits / 8
    match tileFails s.cur va p len rows with
    | some v => trap 2 (BitVec.ofNat 64 v) s
    | none =>
      if b / 2 ^ 51 ≠ 0 ∨ (!uses ∧ ep ≠ 0) then operandTrap b s
      else if !pitchOk p then operandTrap p s
      else if va % 16 ≠ 0 then operandTrap va s
      else if uses ∧ (ep % 64 ≠ 0 ∨ 0x60000 < ep + 192) then operandTrap ep s
      else
        let t := tileAt s va p len rows x.bty.toNat false 0
        let le := layoutAt s (coreOf s.cur) ep
        let le' := layoutAt s (coreOf s.cur) (ep + 191)
        issueCmd true (mstOutside s t (bits / 8) (s.me.ac (accNo x.d)) x.masks)
          { op := 0xB3, x := x, ta := t, epi := ep,
            epiOk := !uses || ((le == 0x10 || le == 0) && (le' == 0x10 || le' == 0)) } s) s

/-- mmask, mrd, mwr and mstat wait for the commands of their accumulator (R291). -/
def accWaits (n : Nat) (body : State → State) (s : State) : State :=
  if accBusy s s.cur n false then waits 10 s else body s

def execMmask (g : Guard) (x : XT) (s : State) : Out :=
  scalarI g (xtLen x) (accWaits (accNo x.d) fun s =>
    let b := xtB x s
    advance (xtLen x) (s.setAcc s.cur (accNo x.d)
     { s.me.ac (accNo x.d) with rows := BitVec.ofNat 32 b, cols := BitVec.ofNat 32 (b / 2 ^ 32) })) s

/-- Element (r, 8g + L) of a position operand (R306). -/
def posElem (b l : Nat) : Nat := 32 * (b % 32) + 8 * (b / 32 % 4) + l

def execMrd (g : Guard) (x : XT) (s : State) : Out :=
  scalarI g (xtLen x) (accWaits (accNo x.a) fun s =>
    let b := xtB x s
    let a := s.me.ac (accNo x.a)
    if (List.range 8).any fun l => a.poison.getLsbD (posElem b l) then trap 0x07 (BitVec.ofNat 64 b) s
    else advance (xtLen x) (s.modMe fun t =>
      { t with r := t.r.putLanes (rngOf x.d) 0xFF fun l => a.el (posElem b l) })) s

def execMwr (g : Guard) (x : XT) (s : State) : Out :=
  scalarI g (xtLen x) (accWaits (accNo x.d) fun s =>
    let b := xtB x s
    let a := s.me.ac (accNo x.d)
    let v := (List.range 8).map fun l => (posElem b l, readLane s.me.r.vec l (rngOf x.a))
    advance (xtLen x) (s.setAcc s.cur (accNo x.d) (a.remake (a.list.zipIdx.map fun e =>
      match v.find? fun (p : Nat × Nat) => p.1 == e.2 with
      | some p => (p.2, false)
      | none => e.1)))) s

def execMstat (g : Guard) (x : XT) (s : State) : Out :=
  scalarI g (xtLen x) (accWaits (accNo x.a) fun s =>
    let b := xtB x s
    let a := s.me.ac (accNo x.a)
    let v := if b = 0 then a.rows.toNat + 2 ^ 32 * a.cols.toNat
      else if b = 1 then ((List.range 1024).filter fun i => a.poison.getLsbD i).length
      else if b ≤ 33 then (a.poison.extractLsb' (32 * (b - 2)) 32).toNat
      else 0
    advance (xtLen x) (putMe x.d v s)) s

/-- msave and mrest (R307). -/
def saveRest (op : Nat) (g : Guard) (x : XT) (s : State) : Out :=
  scalarI g (xtLen x) (fun s =>
    let va := addrA x s
    match tileFails s.cur va 0 4288 [0] with
    | some v => trap 2 (BitVec.ofNat 64 v) s
    | none =>
      if va % 64 ≠ 0 then operandTrap va s
      else
        let (core, off) := (tilePlace s.cur va).getD (0, 0)
        let t : Tile := { va := va, core := core, off := off }
        issueCmd true (op == 0xBB && leavesScratch s core off 4288) { op := op, x := x, ta := t } s) s
def execMsave (g : Guard) (x : XT) (s : State) : Out := saveRest 0xBB g x s
def execMrest (g : Guard) (x : XT) (s : State) : Out := saveRest 0xBC g x s

/-- mcb (R314). -/
def execMcb (g : Guard) (x : XT) (s : State) : Out :=
  scalarI g (xtLen x) (fun s =>
    let va := addrA x s
    let vb := addrB x s
    match tilePlace s.cur va, tilePlace s.cur vb with
    | none, _ => trap 2 (BitVec.ofNat 64 va) s
    | _, none => trap 2 (BitVec.ofNat 64 vb) s
    | some _, some _ =>
      if va % 16 ≠ 0 then operandTrap va s
      else if vb % 16 ≠ 0 then operandTrap vb s
      else issueCmd true false
        { op := 0xB9, x := x, ta := tileAt s va 0 1 [0] 7 true 0, tb := tileAt s vb 0 1 [0] 7 true 0 } s) s

/-! ### Copies at issue (R21, R68, R308) -/

/-- One side of a copy at issue: its pieces, or why it does not go ahead; the private window and the aperture are refused. -/
def copySide (s : State) (k : Right) (va n : Nat) : Except Bad (List Piece) :=
  if va / 2 ^ 60 = 0 then .error (.trap 2 va)
  else match place s.cur va n with
    | some (.sp core off) =>
      if ownerOk s s.cur core off n then .ok [spPiece s core off va n] else .error (.trap 2 va)
    | some (.far core off) =>
      if bhOfCore core = bhOf s.cur && !ownerOk s s.cur core off n then .error (.trap 2 va)
      else match firstUncovered (s.act s.cur).extents k (va + n) 11 va with
        | some b => .error (.trap 3 b)
        | none => .ok [spPiece s core off va n]
    | some .paged =>
      match firstUncovered (s.act s.cur).extents k (va + n) 11 va with
      | some b => .error (.trap 3 b)
      -- a copy is many accesses, each in its page (R116, R309)
      | none => translate s s.cur k (n / 65536 + 2) va n
    | _ => .error (.trap 2 va)

/-- The cause that a copy reports of two sides' (R365): traps by code, the source first, then misses. -/
def worseOf (a b : Option Bad) : Option Bad :=
  match a, b with
  | some (.trap c v), some (.trap d w) => if d < c then some (.trap d w) else some (.trap c v)
  | some (.trap c v), _ => some (.trap c v)
  | _, some (.trap d w) => some (.trap d w)
  | some m, _ => some m
  | none, m => m
def badOf {α : Type} : Except Bad α → Option Bad
  | .error b => some b
  | .ok _ => none

/-- Bits per element of a copy's side: a raw side takes the other's, two raw sides one byte (R308). -/
def sideBits (own other : Nat) : Nat := if own ≠ 0 then elemBits own else if other ≠ 0 then elemBits other else 8

def pieceLay (ps : List Piece) : Nat := (match ps with | p :: _ => p.layout.toNat | [] => 0)

/-- The codebook of a copy's CB4 side: that of the bank of its first byte; a side outside scratchpad has none (R308). (log 71, DESIGN CHOICE,
DESIGN CHOICE) -/
def sideBook (s : State) (ps : List Piece) : Table :=
  match ps.head? with
  | some p => if isSp p.pa then bookOf s (spCore p.pa) (s.bfmt (spCore p.pa) (spOff p.pa / 0x8000)) else { ok := false }
  | none => { ok := false }

/-- Every bank or page that a side touches has one layout. -/
def sideUniform (s : State) (ps : List Piece) : Bool :=
  ps.all fun p => p.layout.toNat == pieceLay ps && (!isSp p.pa ||
    (List.range (p.n / 0x8000 + 2)).all fun i =>
      layoutAt s (spCore p.pa) (min (spOff p.pa + i * 0x8000) (spOff p.pa + p.n - 1)) == pieceLay ps)

/-- Whether a copy of no elements may name an address: not in the private window, nor in the aperture (R21). -/
def copyNames (s : State) (va : Nat) : Bool :=
  va / 2 ^ 60 != 0 && match place s.cur va 0 with
    | none | some (.frame ..) => false
    | _ => true

/-- The bytes of a side of n elements; a raw side beside one that is not known yet counts one. -/
def sideBytes (n own other : Nat) (known : Bool) : Nat :=
  if own = 0 && !known then 1 else (n * sideBits own other + 7) / 8

/-- Whether a pair of sides is one that copies: no conversion of scales or codebooks, and a codebook for every CB4 side (R48, R57,
R308). -/
def pairOk (sl dl : Nat) (sb db : Table) : Bool :=
  let odd (l : Nat) : Bool := l == 0x16 || l == 0x17
  !(sl != dl && sl != 0 && dl != 0 && (odd sl || odd dl)) && (sl != 0x15 || sb.ok) && (dl != 0x15 || db.ok)

/-- A copy of n elements from `sva` to `dva`, judged at issue; a cpm names the layout that it encodes its destination in. -/
def copyCmd (s : State) (op : Nat) (x : XT) (dva sva n : Nat) (enc : Option Nat) : Except Bad Cmd :=
  if n = 0 then
    if !copyNames s dva then .error (.trap 2 dva)
    else if !copyNames s sva then .error (.trap 2 sva)
    else .ok { op := op, x := x, ta := { va := dva } }
  else
    let s1 := copySide s .r sva 1
    let d1 := copySide s .w dva 1
    let bad (a b : Except Bad (List Piece)) : Except Bad Cmd := .error ((worseOf (badOf a) (badOf b)).getD (.trap 2 dva))
    let lay (e : Except Bad (List Piece)) : Nat := match e with
      | .ok ps => pieceLay ps
      | .error _ => 0
    let known (e : Except Bad (List Piece)) : Bool := match e with
      | .ok _ => true
      | .error _ => false
    let missing (e : Except Bad (List Piece)) : Bool := match e with
      | .error (.miss ..) => true
      | _ => false
    if missing s1 || missing d1 then bad s1 d1
    else
      let sl := lay s1
      let dl := enc.getD (lay d1)
      match copySide s .r sva (sideBytes n sl dl (known d1 || enc.isSome)), copySide s .w dva (sideBytes n dl sl (known s1)) with
      | .ok src, .ok dst =>
        let sb := sideBook s src
        let db := sideBook s dst
        .ok { op := op, x := x, ta := { va := dva }, n := n, src := src, dst := dst, sl := sl, dl := dl, sbook := sb,
              dbook := db, copyOk := sideUniform s src && sideUniform s dst && pairOk sl dl sb db }
      | a, b => bad a b

/-- Whether a copy's destination leaves the scratch space of the issuer's core (R292). -/
def copyOutside (s : State) (c : Cmd) : Bool :=
  c.dst.any fun p => !isSp p.pa || leavesScratch s (spCore p.pa) (spOff p.pa) p.n

/-- The side of a copy that a miss belongs to, by its right. -/
def badAt (dva sva : Nat) (b : Bad) : Nat := match b with
  | .miss _ _ .r => sva
  | _ => dva

/-- What a copy's checks do when they stop it. A miss walks for its page and keeps the pages found so far (R71). (log 19, DEDUCED) -/
def copyBad (ea : Nat) (b : Bad) (s : State) : State :=
  match b with
  | .trap c v => trap c (BitVec.ofNat 64 v) (s.modMe fun t => { t with latch := none })
  | .miss va xi k =>
    if s.loading s.cur then s
    else lateMiss ea none va xi k (s.modMe fun t => { t with latch := some (t.latch.getD []) })

/-- cp (R308). -/
def execCp (g : Guard) (x : XT) (s : State) : Out :=
  scalarI g (xtLen x) (fun s =>
    let dva := readSlices s.me.r.scalar (rngOf x.d)
    let sva := addrA x s
    let n := xtB x s
    match copyCmd s 0xB7 x dva sva (min n 16777217) none with
    | .error b => copyBad (badAt dva sva b) b s
    | .ok c =>
      let s := useLate s.cur .r c.src (useLate s.cur .w c.dst (s.modMe fun t => { t with latch := none }))
      if 16777216 < n then operandTrap n s
      else if (x.mcA || x.mcB) && dva / 2 ^ 60 ≠ 1 && dva / 2 ^ 60 ≠ 2 then operandTrap dva s
      else issueCmd false (n != 0 && (x.mcA || x.mcB || copyOutside s c))
        (withSkips s (spCore ((c.dst.head?.map (·.pa)).getD 0)) 0 c) s) s

/-- The layout of an operand type's elements (Table 15-1). -/
def typeLay (ty : Nat) : Nat := match ty with
  | 0 => 1
  | 2 => 0x11
  | 3 => 0x12
  | 4 => 0x10
  | 5 => 0x13
  | 6 => 0x14
  | _ => 0x15

/-- Whether the bank formats let an mma use a tile of a type: its banks accept it, and its scales are where they must be. -/
def Tile.usable (t : Tile) (ty : Nat) : Bool := t.ok && !(t.scv && (ty == 0 || !t.scale.ok)) && (ty != 7 || t.book.ok)

/-- cpm: where the formats of its operands do not let the mma run, the copy is not made either (R294, R310). (log 20, DEDUCED) -/
def execCpm (g : Guard) (x : XT) (s : State) : Out :=
  scalarI g (xtLen x) (masked x fun s =>
    let sva := addrA x s
    let dva := readSlices s.me.r.scalar ⟨x.a.start.toNat + 16, 16⟩
    let ty := x.bty.toNat
    let pitch := rowPitch ty (xtK x)
    let n := 32 * (pitch * 8 / typeBits ty 0 true)
    let tiles : Except (Nat × Nat) (Tile × Tile) := match mmaTiles x (addrB x s) dva s, tileFails s.cur dva 0 (32 * pitch) [0] with
      | .error (2, v), _ => .error (2, v)
      | _, some v => .error (2, v)
      | t, none => t
    match tiles with
    | .error (2, v) => trap 2 (BitVec.ofNat 64 v) s
    | tiles =>
      match copyCmd s 0xB8 x dva sva n (some (typeLay ty)) with
      | .error b => copyBad (badAt dva sva b) b s
      | .ok c =>
        let s := useLate s.cur .r c.src (useLate s.cur .w c.dst (s.modMe fun t => { t with latch := none }))
        match tiles with
        | .error e => trap e.1 (BitVec.ofNat 64 e.2) s
        | .ok t =>
          let whole := tileAt s dva 0 (32 * pitch) [0] ty true 0
          issueCmd true (copyOutside s c)
            { c with ta := t.1, tb := t.2, copyOk := c.copyOk && whole.ok && t.1.usable x.aty.toNat && t.2.usable ty } s) s

/-! ### Effects -/

/-- How a command's work ends: the state, its error class with the address and unit of the first failure, its flags
(Table 20-1, low bit NV), and whether it cancels its activation. -/
structure EOut where
  st : State
  cls : Nat := 0
  addr : Nat := 0
  unit : Nat := 0
  fl : Nat := 0
  cancel : Bool := false

/-- Notes a failure: the first keeps its address and unit. -/
def EOut.fail (o : EOut) (cls addr unit : Nat) : EOut :=
  if o.cls = 0 then { o with cls := cls, addr := addr, unit := unit } else o
def EOut.flag (o : EOut) (f : Nat) : EOut := { o with fl := o.fl ||| f }
def EOut.ff (o : EOut) (f : FFlags) : EOut := o.flag f.bits.toNat

/-- Whether no sector of a range holds poison or bit errors, each line read at its current home, and no migration entry over it is
damaged (R53). -/
def sound (s : State) (pa n : Nat) : Bool :=
  (s.poison.isEmpty && s.flips.isEmpty && s.bh.all fun b => b.2.migBad.isEmpty) || (lineParts (n / 64 + 2) 0 pa n).all fun e =>
    let k := homeOf s e.2.1 / 64
    !s.poison.contains k && (Map.get? s.flips k).isNone && !migLost s e.2.1

/-- The worst severity that bytes are delivered at, each line read at its current home. -/
def byteSev (s : State) (pa n : Nat) : Nat :=
  (lineParts (n / 64 + 2) 0 pa n).foldl (fun m e =>
    max m (if migLost s e.2.1 then 4 else (readLine s (homeOf s e.2.1) e.2.2).2.1)) 0

/-- The severity of each of `cnt` elements from a physical address on. -/
def elemSevs (s : State) (pa bits cnt : Nat) : List Nat :=
  if sound s pa (cnt * bits / 8 + 1) then List.replicate cnt 0
  else (List.range cnt).map fun e => byteSev s (pa + e * bits / 8) (max 1 (bits / 8))

/-- Elements delivered to the matrix array (Table 03-9). -/
def EOut.deliver (o : EOut) (va unit bits : Nat) (sevs : List Nat) : EOut :=
  sevs.zipIdx.foldl (fun o e =>
    if e.1 = 0 then o
    else if e.1 = 1 then o.flag 32
    else if e.1 = 2 then o.flag 64
    else { o.fail 2 (va + e.2 * bits / 8) unit with cancel := o.cancel || e.1 == 4 }) o

/-- The generic address of a scratchpad byte, as the issuer would name it. -/
def gaOf (u core off : Nat) : Nat := if core = coreOf u then 2 ^ 60 + off else clusterForm core off

/-- Reads scratchpad bytes on an engine's path, with the held stores the command may see laid over (R103). (log 21, DEDUCED) -/
def engRead (g : Agent) (c : Cmd) (core off n : Nat) (o : EOut) : EOut × List Byte :=
  let r := readPiece g { va := gaOf g.unit core off, pa := spAddr core off, n := n } { st := o.st }
  ({ o with st := crossing g false 1 (spAddr core off) r.bytes r.st }, overlay c.vis (spAddr core off) r.bytes)

/-- Whether an operand's core answers the issuer (R332, R388, R396). -/
def shutTile (s : State) (g : Agent) (t : Tile) : Bool := coreShut s g (spAddr t.core t.off)

/-- A codebook: the sixteen entries as a number, or the failure that its read is (R48, R320). -/
def readBook (g : Agent) (c : Cmd) (t : Table) (va : Nat) (o : EOut) : EOut × Nat :=
  if !t.ok then (o.fail 1 va (t.core * 4), 0)
  else
    let sev := byteSev o.st (spAddr t.core t.off) 32
    let (o, bs) := engRead g c t.core t.off 32 o
    if 3 ≤ sev then ({ o.fail 2 (gaOf g.unit t.core t.off) (t.core * 4) with cancel := true }, leNat bs)
    else (o, leNat bs)

/-- The exact value of an operand element: sint as an integer, a CB4 code through its codebook. -/
def elemVal (ty bits book v : Nat) : FVal := match ty with
  | 0 => .fin (sgn v bits < 0) (sgn v bits).natAbs 0
  | 7 => bf16.decode (cbEntry book v)
  | _ => (fmtOf ty).decode v
def elemsOf (bits cnt x : Nat) : List Nat := (List.range cnt).map fun e => x / 2 ^ (bits * e) % 2 ^ bits

/-- A row of an mma operand: its number, whether it is damaged, its values and scale bytes, what was read, and the parts of that
(offset and bytes) that read as poison. -/
structure Row where
  i : Nat
  bad : Bool
  hurt : List (Nat × Nat)
  vals : List FVal
  scales : List Nat
  bytes : List Byte

/-- The parts of elements of some bits each that were read at GRAVE or STRUCTURAL severity: offset and bytes. -/
def hurtOf (bits : Nat) (sevs : List Nat) : List (Nat × Nat) :=
  (sevs.zipIdx.filter fun e => 3 ≤ e.1).map fun e => (e.2 * bits / 8, max 1 (bits / 8))

/-- Reads one row (R301, R317, R319, R320). -/
def readRow (g : Agent) (c : Cmd) (t : Tile) (ty k book i : Nat) (o : EOut) : EOut × Row :=
  let bits := typeBits ty 0 true
  let off := t.off + i * t.pitch
  let sevs := elemSevs o.st (spAddr t.core off) bits k
  let (o, bs) := engRead g c t.core off ((k * bits + 7) / 8) o
  let o := o.deliver (t.va + i * t.pitch) (t.core * 4) bits sevs
  let nb := (k + 31) / 32
  let so := t.scale.off + i * scalePitch nb
  let ssev := if t.scv then elemSevs o.st (spAddr t.core so) 8 nb else []
  let (o, sb) := if t.scv then engRead g c t.core so nb o else (o, [])
  let o := o.deliver (gaOf g.unit t.core so) (t.core * 4) 8 ssev
  (o, { i := i, bad := (sevs ++ ssev).any (3 ≤ ·), hurt := hurtOf bits sevs, vals := (elemsOf bits k (leNat bs)).map (elemVal ty bits book),
        scales := sb.map (·.toNat), bytes := bs })

def readRows (g : Agent) (c : Cmd) (t : Tile) (ty k book : Nat) (is : List Nat) (o : EOut) : EOut × List Row :=
  is.foldl (fun a i => let (o, r) := readRow g c t ty k book i a.1; (o, a.2 ++ [r])) (o, [])

/-- The sum of one K-block of products, rounded once (R302, R318): products cut at emax - 40, the exact sum moved by f. -/
def blockSum (ps : List (FVal × FVal)) (f : Int) : FVal × FFlags :=
  let xs := ps.map fun p => (fmulX p.1 p.2, isSig p.1 || isSig p.2)
  let isInf (s : Bool) (x : Option FVal × Bool) : Bool := match x.1 with
    | some (.inf t) => s == t
    | _ => false
  let pinf := xs.any (isInf false)
  let ninf := xs.any (isInf true)
  let nv : FFlags := { nv := (pinf && ninf) || xs.any fun x => x.1.isNone || x.2 }
  if (pinf && ninf) || xs.any (fun x => match x.1 with | none => true | some v => isNan v) then (.nan false, nv)
  else if pinf then (.inf false, nv)
  else if ninf then (.inf true, nv)
  else
    let ts := xs.filterMap fun x => match x.1 with
      | some (.fin s m e) => if m = 0 then none else some (s, m, e)
      | _ => none
    match ts with
    | [] => (.fin false 0 0, nv)
    | t0 :: _ =>
      let top (t : Bool × Nat × Int) : Int := t.2.2 + bitLen t.2.1 - 1
      let q := ts.foldl (fun m t => max m (top t)) (top t0) - 40
      let cut (t : Bool × Nat × Int) : Nat := if q ≤ t.2.2 then t.2.1 * 2 ^ (t.2.2 - q).toNat else t.2.1 / 2 ^ (q - t.2.2).toNat
      let lost (t : Bool × Nat × Int) : Bool := t.2.2 < q && t.2.1 % 2 ^ (q - t.2.2).toNat != 0
      let n : Int := ts.foldl (fun a t => if t.1 then a - cut t else a + cut t) 0
      let r := if n = 0 then (0, {}) else roundDy fp32 0 false ⟨n, q + f⟩
      (fp32.decode r.1, (r.2.or nv).or { nx := ts.any lost })

/-- One element of an mma: the blocks of row r of A and row c of B added in turn (R302, R303, R318). -/
def mmaElem (int sat : Bool) (k : Nat) (a b : Row) (v0 : Nat) : Nat × FFlags :=
  (List.range ((k + 31) / 32)).foldl (fun acc j =>
    let ps := ((a.vals.drop (32 * j)).take 32).zip ((b.vals.drop (32 * j)).take 32)
    if int then
      let t : Int := ps.foldl (fun t p => match p with
        | (.fin s m _, .fin z n _) => if s ^^ z then t - (m * n : Nat) else t + (m * n : Nat)
        | _ => t) (sgn acc.1 32)
      if sat && (t < intLo true 32 || intHi true 32 < t) then
        (wrap 32 (if t < 0 then intLo true 32 else intHi true 32), acc.2.or { of := true, nx := true })
      else (wrap 32 t, acc.2)
    else
      let sa := a.scales[j]?
      let sb := b.scales[j]?
      let (s, f) := if sa = some 0xFF ∨ sb = some 0xFF then (.nan false, {})
        else blockSum ps (((sa.getD 127 : Nat) : Int) - 127 + (((sb.getD 127 : Nat) : Int) - 127))
      let r := faddV fp32 0 (fp32.decode acc.1) s
      (r.1, (acc.2.or f).or r.2)) (v0, {})

/-- A write that an engine makes outside an operand's own bookkeeping: offset, bytes, and the parts of them that carry poison. -/
structure Cast where
  off : Nat
  bytes : List Byte
  hurt : List (Nat × Nat) := []
  /-- Only the low nibble of the last byte is written (R308). -/
  half : Bool := false

/-- The parts that carry poison within n bytes from o on, by their offset there. -/
def hurtIn (o n : Nat) (hs : List (Nat × Nat)) : List (Nat × Nat) :=
  (hs.filter fun h => o < h.1 + h.2 && h.1 < o + n).map fun h => (h.1 - o, min (h.1 + h.2) (o + n) - max h.1 o)

/-- A multicast write cut where banks meet; the fuel is the banks of a scratchpad that it can touch (R25). -/
def Cast.split : Nat → Cast → List Cast
  | 0, _ => []
  | f + 1, p =>
    let m := 0x8000 - p.off % 0x8000
    if p.bytes.length ≤ m then [p]
    else { p with bytes := p.bytes.take m, hurt := hurtIn 0 m p.hurt, half := false } ::
      Cast.split f { p with off := p.off + m, bytes := p.bytes.drop m, hurt := hurtIn m (p.bytes.length - m) p.hurt }

/-- Writes of one core's scratchpad range, with poison for the parts that carry it. -/
def castTo (g : Agent) (gen core : Nat) (p : Cast) (o : EOut) : EOut :=
  let va := gaOf g.unit core p.off
  let pa := spAddr core p.off
  let n := p.bytes.length
  let keep (b : Byte) : Byte := (b &&& 0x0F) ||| (Memory.rd o.st.mem (pa + n - 1) &&& 0xF0)
  let bs := if p.half then p.bytes.dropLast ++ (p.bytes.getLast?.map keep).toList else p.bytes
  let (s, r) := performStore g { va := va, pa := pa, n := n } bs o.st
  let s := if r = .ok then p.hurt.foldl (fun s h => poisonSectors g (pa + h.1) h.2 s) s else s
  let o := { o with st := addRangeOf g.unit gen pa n s }
  if r = .ok then o else o.fail r.cls va (core * 4)

/-- Multicast copies of scratchpad pieces, at the same offset of each core other than the holder; where a receiver's bank had
another layout than the holder's at issue, it is skipped (R115, R294, R296). -/
def multicast (g : Agent) (gen holder : Nat) (skip : List (Nat × Nat)) (cores : List Nat) (ps : List Cast) (o : EOut) : EOut :=
  let parts := ps.flatMap fun p => p.split 14
  cores.foldl (fun o core =>
    if core = holder then o
    else parts.foldl (fun o p =>
      if skip.contains (core, p.off / 0x8000) then o.flag 128 else castTo g gen core p o) o) o

/-- mma at its start: operands read, sums, poison and multicast copies (R301 to R304). -/
def mmaRun (g : Agent) (gen : Nat) (c : Cmd) (o : EOut) : EOut :=
  let x := c.x
  let k := xtK x
  let a := (o.st.th g.unit).ac (accNo x.d)
  let ta := x.aty.toNat
  let tb := x.bty.toNat
  if !c.ta.usable ta then o.fail 1 c.ta.va (c.ta.core * 4)
  else if !c.tb.usable tb then o.fail 1 c.tb.va (c.tb.core * 4)
  else if shutTile o.st g c.ta then o.fail 6 c.ta.va (c.ta.core * 4)
  else if shutTile o.st g c.tb then o.fail 6 c.tb.va (c.tb.core * 4)
  else
    let (o, ba) := if ta = 7 then readBook g c c.ta.book c.ta.va o else (o, 0)
    let (o, bb) := if tb = 7 then readBook g c c.tb.book c.tb.va o else (o, 0)
    if o.cls ≠ 0 then o
    else
      let (o, ra) := readRows g c c.ta ta k ba (a.rowsRead x.masks) o
      let (o, rb) := readRows g c c.tb tb k bb (a.colsRead x.masks) o
      let new : List ((Nat × Bool) × FFlags) := (a.list.zipIdx).map fun e =>
        if a.sel x.masks e.2 then
          match ra.find? (fun (r : Row) => r.i == e.2 / 32), rb.find? (fun (r : Row) => r.i == e.2 % 32) with
          | some p, some q =>
            let v := mmaElem (ta == 0) (x.ctl.getLsbD 0) k p q (if x.zf then 0 else e.1.1)
            ((v.1, e.1.2 || p.bad || q.bad), v.2)
          | _, _ => (e.1, {})
        else (e.1, {})
      let o := { o with st := o.st.setAcc g.unit (accNo x.d) (a.remake (new.map (fun (e : (Nat × Bool) × FFlags) => e.1))) }
      let o := o.ff (new.foldl (fun f (e : (Nat × Bool) × FFlags) => f.or e.2) {})
      let cast (t : Tile) (rs : List Row) (skip : List (Nat × Nat)) (cs : List Nat) (o : EOut) : EOut :=
        multicast g gen t.core skip cs (rs.map fun r => { off := t.off + r.i * t.pitch, bytes := r.bytes, hurt := r.hurt }) o
      let o := if x.mcA then cast c.ta ra c.skipA (castCores g.unit true false) o else o
      if x.mcB then cast c.tb rb c.skipB (castCores g.unit false true) o else o

/-- mtld (R300). -/
def mtldRun (g : Agent) (c : Cmd) (o : EOut) : EOut :=
  let x := c.x
  let t := c.ta
  let ty := x.aty.toNat
  let bits := typeBits ty t.lay false
  let a := (o.st.th g.unit).ac (accNo x.d)
  if !t.ok then o.fail 1 t.va (t.core * 4)
  else if shutTile o.st g t then o.fail 6 t.va (t.core * 4)
  else
    let (o, book) := if ty = 7 then readBook g c t.book t.va o else (o, 0)
    if o.cls ≠ 0 then o
    else
      let rows := if x.tr then a.colsRead x.masks else a.rowsRead x.masks
      let (o, got) := rows.foldl (fun (q : EOut × List (Nat × List Nat × List Nat)) i =>
        let off := t.off + i * t.pitch
        let use (j : Nat) : Bool := a.sel x.masks (if x.tr then 32 * j + i else 32 * i + j)
        let sevs := (elemSevs q.1.st (spAddr t.core off) bits 32).zipIdx.map fun e => if use e.2 then e.1 else 0
        let (o, bs) := engRead g c t.core off (32 * bits / 8) q.1
        (o.deliver (t.va + i * t.pitch) (t.core * 4) bits sevs, q.2 ++ [(i, elemsOf bits 32 (leNat bs), sevs)])) (o, [])
      let load (v : Nat) : FRes := if ty = 0 then (wrap 32 (sgn v bits), {})
        else cvtFF (fmtOf ty) fp32 0 false (elemVal ty bits book v)
      let new : List ((Nat × Bool) × FFlags) := a.list.zipIdx.map fun e =>
        let (i, j) := if x.tr then (e.2 % 32, e.2 / 32) else (e.2 / 32, e.2 % 32)
        match a.sel x.masks e.2, got.find? fun (r : Nat × List Nat × List Nat) => r.1 == i with
        | true, some r =>
          let v := load (r.2.1.getD j 0)
          ((v.1, decide (3 ≤ r.2.2.getD j 0)), v.2)
        | _, _ => (e.1, ({} : FFlags))
      { o with st := o.st.setAcc g.unit (accNo x.d) (a.remake (new.map (fun (e : (Nat × Bool) × FFlags) => e.1))) }.ff (new.foldl (fun f (e : (Nat × Bool) × FFlags) => f.or e.2) {})

/-- The exact value v × scale + bias, with its NV (R305, R252). -/
def epiSum (v : FVal) (scale bias : Option FVal) : FVal × Bool :=
  let p := match scale with
    | none => (v, false)
    | some s => match fmulX v s with
      | none => (.nan false, true)
      | some x => (x, false)
  match bias with
  | none => p
  | some b => match p.1, b with
    | .inf s, .inf t => if s = t then (.inf s, p.2) else (.nan false, true)
    | .inf s, .fin .. => (.inf s, p.2)
    | .fin .., .inf t => (.inf t, p.2)
    | .fin s m e, .fin t n k =>
      let r := (dyOf s m e).add (dyOf t n k)
      (.fin (if r.n = 0 then zeroSign 0 s t else r.n < 0) r.n.natAbs r.e, p.2)
    | x, y => (.nan (isSig x || isSig y), p.2)

/-- What mst stores of an element (R305): A type fp32 or sint, B type, destination bits. (log 70, DEDUCED) -/
def epiOut (aty bty bits : Nat) (sat : Bool) (scale bias : Option FVal) (e : Nat) : FRes :=
  if aty = 0 ∧ bty = 0 ∧ scale.isNone ∧ bias.isNone then
    let i := sgn e 32
    if sat then
      let clamps := i < intLo true bits || intHi true bits < i
      (wrap bits (if i < intLo true bits then intLo true bits else if intHi true bits < i then intHi true bits else i),
        { of := clamps, nx := clamps })
    else (wrap bits i, {})
  else
    let v : FVal := if aty = 0 then .fin (sgn e 32 < 0) (sgn e 32).natAbs 0 else fp32.decode e
    let (y, nv) := epiSum v scale bias
    let r := if bty = 0 then cvtFI true bits 0 y else cvtFF fp32 (fmtOf bty) 0 (sat || bty == 5) y
    (r.1, r.2.or { nv := nv })

/-- mst: the epilogue block, then each row's selected elements, then poison (R305). -/
def mstRun (g : Agent) (gen : Nat) (c : Cmd) (o : EOut) : EOut :=
  let x := c.x
  let t := c.ta
  let own := coreOf g.unit
  let bty := x.bty.toNat
  let bits := typeBits bty t.lay false
  let nb := bits / 8
  let a := (o.st.th g.unit).ac (accNo x.d)
  let sc := x.ctl.getLsbD 0
  let bi := x.ctl.getLsbD 1
  if !t.ok then o.fail 1 t.va (t.core * 4)
  else if !c.epiOk then o.fail 1 (gaOf g.unit own c.epi) (own * 4)
  else if shutTile o.st g t then o.fail 6 t.va (t.core * 4)
  else
    let sevs := if sc || bi then elemSevs o.st (spAddr own c.epi) 32 48 else []
    let (o, blk) := if sc || bi then engRead g c own c.epi 192 o else (o, [])
    let used (i : Nat) : Bool := (sc && i == 0) || (bi && 16 ≤ i)
    let o := o.deliver (gaOf g.unit own c.epi) (own * 4) 32 (sevs.zipIdx.map fun e => if used e.2 then e.1 else 0)
    let word (i : Nat) : FVal := fp32.decode (leNat ((blk.drop (4 * i)).take 4))
    let bad (i : Nat) : Bool := used i && decide (3 ≤ sevs.getD i 0)
    let out (i : Nat) : FRes := epiOut x.aty.toNat bty bits (x.ctl.getLsbD 2) (if sc then some (word 0) else none)
      (if bi then some (word (16 + i % 32)) else none) (a.el i)
    let o := (a.rowsRead x.masks).foldl (fun o r =>
      (colRuns ((List.range 32).filter fun j => a.sel x.masks (32 * r + j))).foldl (fun o run =>
        let vs := (List.range run.2).map fun j => out (32 * r + run.1 + j)
        let off := t.off + r * t.pitch + run.1 * nb
        let va := t.va + r * t.pitch + run.1 * nb
        let bs := vs.flatMap fun v => leBytes nb v.1
        let (s, e) := performStore g { va := va, pa := spAddr t.core off, n := bs.length } bs o.st
        let o := { o with st := addRangeOf g.unit gen (spAddr t.core off) bs.length s }
        let o := if e = .ok then o else o.fail e.cls va (t.core * 4)
        o.ff (vs.foldl (fun f v => f.or v.2) {})) o) o
    (List.range 1024).foldl (fun o i =>
      if a.sel x.masks i && (a.poison.getLsbD i || bad 0 || bad (16 + i % 32)) then
        let d := i / 32 * t.pitch + i % 32 * nb
        { o with st := poisonSectors g (spAddr t.core (t.off + d)) nb o.st }.fail 2 (t.va + d) (t.core * 4)
      else o) o

/-- The save image of an accumulator (Table 15-4). -/
def Acc.image (a : Acc) : List Byte :=
  leBytes 4096 a.elems.toNat ++ leBytes 128 a.poison.toNat ++ leBytes 4 a.rows.toNat ++ leBytes 4 a.cols.toNat ++
    List.replicate 56 0

def msaveRun (g : Agent) (gen : Nat) (c : Cmd) (o : EOut) : EOut :=
  let t := c.ta
  let a := (o.st.th g.unit).ac (accNo c.x.d)
  let (s, e) := performStore g { va := t.va, pa := spAddr t.core t.off, n := 4288 } a.image o.st
  let o := { o with st := addRangeOf g.unit gen (spAddr t.core t.off) 4288 s }
  if e = .ok then o else o.fail e.cls t.va (t.core * 4)

/-- mrest: an element whose own sector, or whose bitmap sector, reads as GRAVE or STRUCTURAL becomes poisoned (R307). -/
def mrestRun (g : Agent) (c : Cmd) (o : EOut) : EOut :=
  let t := c.ta
  if shutTile o.st g t then o.fail 6 t.va (t.core * 4)
  else
    let sev := (List.range 66).map fun i => byteSev o.st (spAddr t.core (t.off + 64 * i)) 64
    let (o, bs) := engRead g c t.core t.off 4288 o
    let o := o.deliver t.va (t.core * 4) 512 sev
    let x := leNat bs
    let p := x >>> (8 * 0x1000)
    let a := (o.st.th g.unit).ac (accNo c.x.d)
    let a := { a with rows := BitVec.ofNat 32 (x >>> (8 * 0x1080)), cols := BitVec.ofNat 32 (x >>> (8 * 0x1084)) }
    { o with st := o.st.setAcc g.unit (accNo c.x.d) (a.remake ((List.range 1024).map fun i =>
        (x >>> (32 * i) % 2 ^ 32, p.testBit i || 3 ≤ sev.getD (i / 16) 0 || 3 ≤ sev.getD (64 + i / 512) 0))) }

/-- mzero. -/
def mzeroRun (g : Agent) (c : Cmd) (o : EOut) : EOut :=
  let a := (o.st.th g.unit).ac (accNo c.x.d)
  { o with st := o.st.setAcc g.unit (accNo c.x.d) (a.remake (a.list.zipIdx.map fun e =>
      if a.sel c.x.masks e.2 then (0, false) else e.1)) }

/-- Whether a tile's bank has a codebook for mcb to read: its layout is CB4 and its book lies where it must; scales play no part
(R314). -/
def Tile.hasBook (t : Tile) : Bool := t.ok && t.book.ok

/-- mcb: the table cache is no architectural state; its failures are (R313, R314, R320). -/
def mcbRun (g : Agent) (c : Cmd) (o : EOut) : EOut :=
  if !c.ta.hasBook then o.fail 1 c.ta.va (c.ta.core * 4)
  else if !c.tb.hasBook then o.fail 1 c.tb.va (c.tb.core * 4)
  else if shutTile o.st g c.ta then o.fail 6 c.ta.va (c.ta.core * 4)
  else if shutTile o.st g c.tb then o.fail 6 c.tb.va (c.tb.core * 4)
  else (readBook g c c.tb.book c.tb.va (readBook g c c.ta.book c.ta.va o).1).1

/-! ### Copies (R57, R308, R309, Table 03-10) -/

/-- An integer layout's width, and the float type code of a layout. -/
def layInt (l : Nat) : Option Nat := if 1 ≤ l ∧ l ≤ 4 then some (elemBits l) else none
def layFloat (l : Nat) : Nat := match l with
  | 0x10 => 4
  | 0x11 => 2
  | 0x12 => 3
  | 0x13 => 5
  | _ => 6

/-- One element converted from a layout to another (Table 03-10). (log 70, DEDUCED) -/
def convertElem (sl dl sbook dbook v : Nat) : FRes :=
  let val : FVal := match layInt sl with
    | some n => .fin (sgn v n < 0) (sgn v n).natAbs 0
    | none => if sl = 0x15 then bf16.decode (cbEntry sbook v) else (fmtOf (layFloat sl)).decode v
  if dl = 0x15 then quantise' dbook val
  else match layInt sl, layInt dl with
    | some n, some m =>
      let i := sgn v n
      (wrap m (max (intLo true m) (min i (intHi true m))), let clamps : Bool := i < intLo true m || intHi true m < i; { of := clamps, nx := clamps })
    | none, some m => cvtFI true m 0 val
    | _, none => cvtFF (if sl = 0x15 then bf16 else fmtOf (layFloat sl)) (fmtOf (layFloat dl)) 0 (dl == 0x13) val
where
  /-- the nearest codebook entry, as vqcb chooses it with scale 1 -/
  quantise' (book : Nat) (y : FVal) : FRes :=
    if isNan y then (0, nvOnly) else let (i, nx) := nearest book y; (i, { nx := nx })

/-- The physical address of byte o of a range. -/
def paAt (va : Nat) : List Piece → Nat → Nat
  | [], _ => 0
  | p :: ps, o => if va + o < p.va + p.n then p.pa + (va + o - p.va) else paAt va ps o

/-- A copy's effect. (log 8, DEDUCED) -/
def copyRun (g : Agent) (gen : Nat) (c : Cmd) (timedOut : Bool) (o : EOut) : EOut :=
  let dva := (c.dst.head?.map (·.va)).getD 0
  let sva := (c.src.head?.map (·.va)).getD 0
  if c.n = 0 then o
  else if !c.copyOk then o.fail 1 dva (unitOfPa ((c.dst.head?.map (·.pa)).getD 0))
  else
    let sbits := sideBits c.sl c.dl
    let dbits := sideBits c.dl c.sl
    let conv := c.sl ≠ c.dl ∧ c.sl ≠ 0 ∧ c.dl ≠ 0
    match c.src.find? fun p => reach o.st g p .r != .ok with
    | some p => o.fail (reach o.st g p .r).cls p.va (unitOfPa p.pa)
    | none =>
      if timedOut then
        match c.src.find? (heldPiece o.st) with
        | some p => o.fail 3 p.va (unitOfPa p.pa)
        | none => o
      else
        let o := { o with st := settleLines c.src o.st }
        let (o, sb) := if conv ∧ c.sl = 0x15 then readBook g c c.sbook sva o else (o, 0)
        let (o, db) := if conv ∧ c.dl = 0x15 then readBook g c c.dbook dva o else (o, 0)
        let whole := o.cancel
        let esev (e : Nat) : Nat := byteSev o.st (paAt sva c.src (e * sbits / 8)) (max 1 (sbits / 8))
        let sevs : List (Nat × Nat) := if c.src.all fun p => sound o.st p.pa p.n then []
          else ((List.range c.n).map fun e => (e, esev e)).filter fun e => e.2 != 0
        let s := c.src.foldl (fun s p => remoteAdd g p s) o.st
        let r := readPieces g c.src s
        let x := leNat (overlayPieces c.vis c.src r.bytes)
        let o := { o with st := (c.src.foldl (fun (a : State × List Byte) (p : Piece) =>
          (crossing g false p.ord p.pa (a.2.take p.n) a.1, a.2.drop p.n)) (r.st, r.bytes)).1 }
        let o := sevs.foldl (fun o e =>
          if e.2 = 1 then o.flag 32 else if e.2 = 2 then o.flag 64
          else { o.fail 2 (sva + e.1 * sbits / 8) (unitOfPa (paAt sva c.src (e.1 * sbits / 8))) with
                 cancel := o.cancel || e.2 == 4 }) o
        let es := elemsOf sbits c.n x
        let ys := if conv then es.map (convertElem c.sl c.dl sb db) else es.map fun v => (v, ({} : FFlags))
        let o := o.ff (ys.foldl (fun f y => f.or y.2) {})
        let nd := (c.n * dbits + 7) / 8
        let y := ys.foldr (fun v t => v.1 % 2 ^ dbits + 2 ^ dbits * t) 0
        -- a count that ends mid-byte keeps the other nibble
        let last := (Memory.rd o.st.mem (homeOf o.st (paAt dva c.dst (nd - 1)))).toNat
        let y := if c.n * dbits % 8 = 0 then y else y + last / 16 * 16 * 2 ^ (8 * (nd - 1))
        let bs := leBytes nd y
        let o := c.dst.foldl (fun o p =>
          let part := (bs.drop (p.va - dva)).take p.n
          let (s, e) := performStore g p part o.st
          if e = .ok then { o with st := crossing g true p.ord p.pa part (addRangeOf g.unit gen p.pa p.n s) }
          else { o with st := s }.fail e.cls p.va (unitOfPa p.pa)) o
        -- bytes of the destination that carry poison
        let hurt : List (Nat × Nat) := if whole ∨ sevs.any (fun (e : Nat × Nat) => e.2 == 4) then [(0, nd)]
          else (sevs.filter fun (e : Nat × Nat) => 3 ≤ e.2).map fun e => (e.1 * dbits / 8, max 1 (dbits / 8))
        let o := { o with st := c.dst.foldl (fun s p =>
          (hurtIn (p.va - dva) p.n hurt).foldl (fun s h => poisonSectors g (p.pa + h.1) h.2 s) s) o.st }
        if c.x.mcA || c.x.mcB then
          multicast g gen (spCore ((c.dst.head?.map (·.pa)).getD 0)) c.skipA (castCores g.unit c.x.mcA c.x.mcB)
            (c.dst.map fun p => { off := spOff p.pa, bytes := (bs.drop (p.va - dva)).take p.n
                                  half := c.n * dbits % 8 != 0 && p.va + p.n == dva + nd
                                  hurt := hurtIn (p.va - dva) p.n hurt }) o
        else o

/-! ### Completion (R117, R290) -/

/-- What a command does when it runs; a failed copy of a cpm starts no mma (R310). (log 8, DEDUCED) (log 20, DEDUCED) -/
def cmdRun (g : Agent) (gen : Nat) (c : Cmd) (mat timedOut : Bool) (o : EOut) : EOut :=
  if !mat then copyRun g gen c timedOut o
  else if c.op = 0xB8 then
    let (cls, addr, unit, fl) := c.copied
    if cls ≠ 0 then (o.flag fl).fail cls addr unit else mmaRun g gen c (o.flag fl)
  else match c.op with
    | 0xB0 => mzeroRun g c o
    | 0xB1 => mmaRun g gen c o
    | 0xB2 => mtldRun g c o
    | 0xB3 => mstRun g gen c o
    | 0xB9 => mcbRun g c o
    | 0xBB => msaveRun g gen c o
    | _ => mrestRun g c o

/-- The connections of output port 8 + n. -/
def completionConns (s : State) (r n : Nat) : List (Conn × Nat) :=
  (s.re r).conns.zipIdx.filter fun c => c.1.valid && c.1.oport == 8 + n

/-- Posts a command's completion: entry, STICKY, event, counter; then what waited for it (R218, R290, R378). (log 20, DEDUCED) -/
def postCmd (u r : Nat) (mat : Bool) (seq : W32) (ctr gen : Nat) (tag : W64 × W32) (c : Cmd) (o : EOut) : State :=
  let unit := if o.cls = 0 then u else o.unit
  let addr := if o.cls = 0 then c.ta.va else o.addr
  let s := completeTo r (complEntry seq unit o.cls addr o.fl (if mat then 1 else 0)) o.st
  let pa := (s.re r).ctlPa 0x38
  let s := if s.hasRe r then s.put pa (leBytes 8 (s.rawNat pa 8 ||| o.fl % 32)) else s
  let s := countEv u 0x07 1 s
  let s := if xtEv c.x then
      (completionConns s r ctr).foldl (fun s k => leave
        { reactor := r, conn := k.2, tagt := tag.1, tagm := tag.2 + 1, sender := BitVec.ofNat 32 u, flags := 0x10,
          payload := BitVec.ofNat 64 (seq.toNat + 2 ^ 32 * (unit % 2 ^ 27 + 2 ^ 27 * o.cls)) } s) s
    else s
  let s := if (s.th u).gen = gen ∧ (s.th u).act.isSome then s.decC u ctr else s
  let s := if o.cancel then cancelIssuer u gen s else s
  let s := if (s.re r).st = .settle && !settling s r then s.modRe r fun x => { x with st := .hold } else s
  evalDev (devOf u) s

/-- Whether an earlier command of the same core's copy engine keeps a copy back: by the order of SO and DV pages, which the engine
keeps as commands were issued to it (R90, R92). -/
def copyHeld (s : State) (id u : Nat) (c : Cmd) : Bool :=
  s.flight.any fun e => match e.2 with
    | .engine v _ false _ _ _ _ d _ => e.1 < id && coreOf v == coreOf u &&
        (d.src ++ d.dst).any fun p => (c.src ++ c.dst).any fun q => p.ord == 0 || q.ord == 0 || (p.ord == 3 && q.ord == 3)
    | _ => false

/-- Whether a store of a core issued before place `id` is still to be performed: the core's agents see a drain as one step
(R101). -/
def storesBefore (s : State) (id core : Nat) : Bool :=
  s.flight.any fun e => e.1 < id && ((unperformed e.2).any fun o => o.store && coreOf o.ts == core)

/-- ENGINE_COMPLETION: the lowest-numbered command of its reactor and engine runs and completes. It waits for the copy of a
cpm, for earlier stores of its core, for earlier copies that order it, for room for its events, and for a read that is held at a
withdrawn frame once the gates have admitted it (R39, R75, R121). (log 8, DEDUCED) (log 21, DEDUCED) -/
def execEngineCompletion (id : Nat) (s : State) : Out :=
  .next (match s.fl? id with
  | some (.engine u r mat seq ctr gen tag c priv) =>
    let first := s.flight.all fun e => match e.2 with
      | .engine _ q m .. => q != r || m != mat || id ≤ e.1
      | _ => true
    let depDone := match c.dep with
      | some d => (s.fl? d).isNone
      | none => true
    let timedOut := s.flight.any fun e => e.2 == .heldRead id
    let g := { farAgent s u r (if mat then 2 else 1) priv with passed := c.passed }
    let held := !mat && c.copyOk && heldReads s g c.src
    if !first || !depDone || storesBefore s id (coreOf u) || (!mat && copyHeld s id u c) ||
        (xtEv c.x && !sendRoom s (s.re r).core (completionConns s r ctr).length) then s
    else if held && !timedOut then s.setFl id (.engine u r mat seq ctr gen tag { c with passed := true } priv)
    else
      let s := { s with flight := s.flight.filter fun e => e.1 != id && e.2 != .heldRead id }
      let o := cmdRun g gen c mat (held && timedOut) { st := s }
      if !mat && c.op = 0xB8 then
        let s := { o.st with flight := o.st.flight.map fun (e : Nat × Flight) => match e.2 with
          | .engine u r true q k gn tg d pv =>
            if d.dep = some id then (e.1, .engine u r true q k gn tg { d with copied := (o.cls, o.addr, o.unit, o.fl) } pv)
            else e
          | _ => e }
        if o.cancel then cancelIssuer u gen s else s
      else postCmd u r mat seq ctr gen tag c o
  | _ => s)

/-! ### Banks that commands use (R47) -/

/-- The masks under which a command reads its rows: those of its accumulator now, all of it where an mrest is still to load them. -/
def Cmd.accOf (s : State) (u : Nat) (c : Cmd) : Acc :=
  if s.flight.any fun e => match e.2 with
      | .engine v _ true _ _ _ _ d _ => v == u && d.op == 0xBC && accNo d.x.d == accNo c.x.d
      | _ => false
  then {} else (s.th u).ac (accNo c.x.d)

/-- The scratchpad ranges that a command of the copy engine, or of the matrix array where `mat`, accesses: core, offset, bytes. -/
def Cmd.spans (s : State) (u : Nat) (mat : Bool) (c : Cmd) : List (Nat × Nat × Nat) :=
  let x := c.x
  let a := c.accOf s u
  let book (t : Table) (use : Bool) : List (Nat × Nat × Nat) := if use then [(t.core, t.off, 32)] else []
  -- multicast copies into the issuer's own core
  let own (l : List (Nat × Nat × Nat)) : List (Nat × Nat × Nat) := l.map fun r => (coreOf u, r.2)
  let rows (t : Tile) (is : List Nat) (n : Nat) : List (Nat × Nat × Nat) := is.map fun i => (t.core, t.off + i * t.pitch, n)
  if mat then
    let operand (t : Tile) (ty : Nat) (is : List Nat) (cast : Bool) : List (Nat × Nat × Nat) :=
      let l := rows t is (rowLen ty (xtK x))
      l ++ (if cast then own l else []) ++ book t.book (ty == 7) ++
        if t.scv && !is.isEmpty then [(t.scale.core, t.scale.off, 1)] else []
    match c.op with
    | 0xB1 | 0xB8 => operand c.ta x.aty.toNat (a.rowsRead x.masks) x.mcA ++ operand c.tb x.bty.toNat (a.colsRead x.masks) x.mcB
    | 0xB2 => rows c.ta (if x.tr then a.colsRead x.masks else a.rowsRead x.masks) (4 * typeBits x.aty.toNat c.ta.lay false) ++
        book c.ta.book (x.aty == 7)
    | 0xB3 =>
      let nb := typeBits x.bty.toNat c.ta.lay false / 8
      ((a.rowsRead x.masks).flatMap fun r => (colRuns ((List.range 32).filter fun j => a.sel x.masks (32 * r + j))).map fun run =>
        (c.ta.core, c.ta.off + r * c.ta.pitch + run.1 * nb, run.2 * nb)) ++
        if x.ctl.getLsbD 0 || x.ctl.getLsbD 1 then [(coreOf u, c.epi, 192)] else []
    | 0xB9 => book c.ta.book true ++ book c.tb.book true
    | 0xBB | 0xBC => [(c.ta.core, c.ta.off, 4288)]
    | _ => []
  else
    let sides (ps : List Piece) : List (Nat × Nat × Nat) := (ps.filter fun p => isSp p.pa).map fun p => (spCore p.pa, spOff p.pa, p.n)
    let conv := c.sl != c.dl && c.sl != 0 && c.dl != 0
    sides (c.src ++ c.dst) ++ (if x.mcA || x.mcB then own (sides c.dst) else []) ++
      book c.sbook (conv && c.sl == 0x15) ++ book c.dbook (conv && c.dl == 0x15)

/-- A command of a core, issued before place `id`, that touches a bank (R47 step 1). -/
def touching (s : State) (core bank id : Nat) : Bool :=
  s.flight.any fun e => match e.2 with
    | .engine u _ mat _ _ _ _ c _ =>
      e.1 < id && coreOf u == core && (c.spans s u mat).any fun r =>
        r.1 == core && r.2.1 < 0x8000 * (bank + 1) && 0x8000 * bank < r.2.1 + r.2.2
    | _ => false

/-- Whether earlier commands of a core still touch one of its banks. -/
def banksBusy (s : State) (core : Nat) (banks : List Nat) : Bool := banks.any fun b => touching s core b s.nextId

end Sys2Proof.Machine
end

