-- ==== Sys2Proof/Machine/Translation.lean ====
section
/-! DEFINITION. Translation.lean: extents, fragments and pins before a dispatch (R64 to R67, R70), late-bound pages (R71 to
R74), code pages (R216), page requests and their answers (R77, R78), and the pin messages (R62, R67). -/

namespace Sys2Proof.Machine

/-! ### The extents of a reactor (R64, Table 07-2) -/

/-- A valid extent as the argument words give it. -/
structure Ext where
  i : Nat
  base : Nat
  len : Nat
  dir : Nat
  at? : Bool
  deriving DecidableEq, Repr

/-- The valid extents of a reactor, in order. -/
def extentsOf (s : State) (r : Reactor) : List Ext :=
  (List.range 10).filterMap fun i =>
    let e := (r.exts[i]?.getD 0).toNat
    let arg (k : Nat) : Nat := s.rawNat (r.ctlPa (0x98 + 8 * k)) 8
    if e.testBit 31 then
      some { i := i, base := arg (fld e 27 25), len := arg (fld e 24 22), dir := fld e 30 29, at? := e.testBit 28 }
    else none

/-- An extent that breaks R64 (R66). -/
def Ext.bad (x : Ext) : Bool :=
  let w := x.base / 2 ^ 60
  w < 3 || 0xE < w || x.len == 0 || 2 ^ 40 < x.len || (if w = 0xE then 2 ^ 44 else 2 ^ 48) < x.base % 2 ^ 60 + x.len

/-- Its extent-table entry (Table 04-3). -/
def Ext.word (x : Ext) (first n : Nat) : W128 :=
  BitVec.ofNat 128 (x.base * 2 ^ 64 + (x.len - 1) * 2 ^ 24 + x.dir * 2 ^ 22 + x.at?.toNat * 2 ^ 21 +
    (if 8 ≤ x.i then 2 ^ 20 else 0) + 2 ^ 19 + n * 2 ^ 9 + first)

/-- Whether a leaf grants a direction and atomics (R66). -/
def leafGrants (e : W128) (dir : Nat) (at? : Bool) : Bool :=
  (!dir.testBit 0 || pteR e) && (!dir.testBit 1 || pteW e) && (!at? || pteA e)

/-! ### Walking for an activation -/

/-- What stops a translation: a cancellation with its record's cause, ADDR, PHYS and, for causes 1 and 2, target; or a page
that is not resident, with the access kind. -/
inductive XStop where
  | cancel (cause addr : Nat) (phys : Bool) (peer : Option Nat)
  | page (va : Nat) (kind : BitVec 2) (isLate : Bool)
  /-- a table read is held at a withdrawn frame (R75) -/
  | held
  deriving DecidableEq, Repr

/-- A resident leaf that a translation met. -/
structure Leaf where
  e : W128
  lvl : Nat
  va : Nat
  entry : Nat
  deriving DecidableEq, Repr

/-- A page of an extent by the tables, for the sequencer of a cluster: its leaf, checked against DIR and AT, and, where the
frame is the sequencer's own bulkhead's, against TENANT and attributes (R62, R66). `out` says that a held table read has ended
"not resident" (R75). -/
def walkPage (cl : Nat) (out : Bool) (x : Ext) (kind : BitVec 2) (isLate : Bool) (va : Nat) (s : State) :
    State × Except XStop Leaf :=
  match walkSeq s cl false va with
  | (s, .leaf e lvl en) =>
    if bhOfPa (leafAddr e) = bhOfClu cl && !tenantOk s e then (s, .error (.cancel 5 en true none))
    else if !leafGrants e x.dir x.at? then (s, .error (.cancel 6 x.base false none))
    else (s, .ok { e := e, lvl := lvl, va := va, entry := en })
  | (s, .absent) | (s, .unmapped) => (s, .error (.page va kind isLate))
  | (s, .malformed en) => (s, .error (.cancel 5 en true none))
  | (s, .refused en) => (s, .error (.cancel 1 va false (some (bhOfPa en * 4096))))
  | (s, .dead en) => (s, .error (.cancel 2 va false (some (bhOfPa en * 4096))))
  | (s, .held _) => (s, .error (if out then .page va kind isLate else .held))

/-- The fragment of a 64 KiB unit of window 0xE (R66); layout and TM are those of the lower of its two banks. (log 67, DESIGN CHOICE) -/
def farFrag (s : State) (va : Nat) : W64 :=
  let lo := va % 2 ^ 60
  let pa := spAddr ((lo / 2 ^ 34) * 32768 + (lo / 2 ^ 29 % 32) * 1024 + lo / 2 ^ 19 % 1024) (lo % 2 ^ 19 / 65536 * 65536)
  let p := s.protection pa
  BitVec.ofNat 64 (pa + p.1 * 256 + 64 + p.2.toNat * 32 + 2 + 1)

/-- What the translation of an activation has built so far. -/
structure Xl where
  st : State
  exts : List W128 := List.replicate 10 0
  frags : List W64 := []
  leaves : List Leaf := []
  stop : Option XStop := none

/-- The pages of one declared extent from `va` on; `n` fragments are already made. -/
def xlPages (cl : Nat) (out : Bool) (e : Ext) : Nat → Nat → Nat → Xl → Xl
  | 0, _, _, x => { x with stop := some (.cancel 7 e.base false none) }
  | f + 1, n, va, x =>
    if e.base + e.len ≤ va then { x with exts := x.exts.set e.i (e.word (x.frags.length - n) n) }
    else if n = 64 ∨ x.frags.length = 512 then { x with stop := some (.cancel 7 e.base false none) }
    else if e.base / 2 ^ 60 = 0xE then
      xlPages cl out e f (n + 1) (va / 65536 * 65536 + 65536) { x with frags := x.frags ++ [farFrag x.st va] }
    else
      match walkPage cl out e (if e.dir.testBit 1 then 2 else 1) false va x.st with
      | (s, .error w) => { x with st := s, stop := some w }
      | (s, .ok l) =>
        xlPages cl out e f (n + 1) (va / lvlSize l.lvl * lvlSize l.lvl + lvlSize l.lvl)
          { x with st := s, frags := x.frags ++ [leafFrag s l.e l.lvl], leaves := x.leaves ++ [l] }

/-- The extent table and fragments of an activation of a reactor by the sequencer of a cluster (R65, R66): every valid extent is judged first, then each
is walked in order. -/
def xlExtents (cl r : Nat) (out : Bool) (s : State) : Xl :=
  let es := extentsOf s (s.re r)
  match es.find? Ext.bad with
  | some e => { st := s, stop := some (.cancel 15 e.base false none) }
  | none => es.foldl (fun x e =>
      if x.stop.isSome then x
      else if 8 ≤ e.i then { x with exts := x.exts.set e.i (e.word 0 0) }
      else xlPages cl out e 66 0 e.base x) { st := s }

/-- A late-bound page's entry (Table 04-5). -/
def lateWord (va ts xi : Nat) (frag : W64) : W128 :=
  BitVec.ofNat 128 (va / 65536 * 2 ^ 80 + ts % 4 * 2 ^ 78 + xi * 2 ^ 77 + frag.toNat)

/-- The extent that late-bound extent 8 + xi of a reactor is. -/
def lateExt (s : State) (r xi : Nat) : Option Ext := (extentsOf s (s.re r)).find? fun e => e.i == 8 + xi

/-- The late page that a retry fills (R72): its leaf, if the extent is still valid. -/
def xlLate (cl r : Nat) (out : Bool) (late : Option (Nat × Nat × BitVec 2)) (x : Xl) : Xl × Option (Leaf × Nat) :=
  match x.stop, late with
  | none, some (va, xi, k) =>
    match lateExt x.st r xi with
    | none => (x, none)
    | some e =>
      match walkPage cl out e k true va x.st with
      | (s, .error w) => ({ x with st := s, stop := some w }, none)
      | (s, .ok l) => ({ x with st := s }, some (l, xi))
  | _, _ => (x, none)

/-- Whether two leaves name one frame, with the same TENANT, LAYOUT, TM and ZE. -/
def sameFrame (a b : W128) : Bool :=
  leafAddr a == leafAddr b && pteTenant a == pteTenant b && pteLayout a == pteLayout b && pteTM a == pteTM b &&
    pteZE a == pteZE b

/-- The leaves to pin: each distinct page once, and the late page's own pin (R67, R72). Two leaves that name one frame
differently are both judged there, and one of them is refused (R62). -/
def pinList (ls : List Leaf) (late : Option (Leaf × Nat)) : List Leaf :=
  (ls.foldl (fun acc l => if acc.any fun k => sameFrame k.e l.e then acc else acc ++ [l]) []) ++ (late.map (·.1)).toList

/-- Pins the HBM pages of a bulkhead; `none` while one of them stands at 255 (R67). -/
def pinLocal (bh : Nat) (ls : List Leaf) (s : State) : Option (State × List Nat) :=
  (ls.filter fun l => bhOfPa (leafAddr l.e) == bh && !isSp (leafAddr l.e)).foldl (fun acc l =>
    match acc with
    | none => none
    | some (s, ps) => if pinsAt s (leafAddr l.e) = 255 then none else some (pinAdd (leafAddr l.e) s, ps ++ [leafAddr l.e]))
    (some (s, []))

/-- The leaves whose frames lie in another bulkhead: a pin message each (R67). -/
def remotePins (bh : Nat) (ls : List Leaf) : List Leaf := ls.filter fun l => bhOfPa (leafAddr l.e) != bh

/-! ### Page requests (R77) -/

/-- The queue entry of a page request (Table 04-9). -/
def PageReq.qentry (q : PageReq) (s : State) (pager : Nat) : QEntry :=
  { tagt := q.tagt, tagm := q.tagm, sender := BitVec.ofNat 32 (q.core * 4),
    route := BitVec.ofNat 24 (ridOf pager + 0x32 * 65536),
    sendt := BitVec.ofNat 32 (s.ns (bhOfCore q.core)),
    payload := BitVec.ofNat 64 (q.va / 65536 % 2 ^ 32 + (q.va / 2 ^ 60 + q.kind.toNat * 16 + q.late.toNat * 64 +
      q.code.toNat * 128 + ridOf q.reactor * 256 + q.num * 2 ^ 24) * 2 ^ 32) }

/-- Queues a cluster's oldest unposted page request at a pager that has a spare entry. (log 49, DEDUCED) -/
def postPage (cl pager : Nat) (s : State) : State :=
  match (s.cl cl).reqs.find? fun q => !q.posted with
  | none => s
  | some q =>
    if (s.re pager).spares = 0 then s
    else
      let s := s.modRe pager fun x => { x with spares := x.spares - 1 }
      let s := indexEntry pager (q.qentry s pager) .spare false s
      s.modCl cl fun c => { c with reqs := c.reqs.map fun x => if x.walk = q.walk then { x with posted := true } else x }

/-- The cluster whose page request has waited longest for a spare entry of a pager (R77). -/
def pageWaiter (s : State) (r : Nat) : Option Nat :=
  let ws := (s.clu.filter fun e => pagerOf s (bhOfClu e.1) == some r).filterMap fun e =>
    (e.2.reqs.find? fun q => !q.posted).map fun q => (e.1, q.order)
  (ws.foldl (fun m e => match m with
    | some k => if e.2 < k.2 then some e else some k
    | none => some e) none).map (·.1)

/-- A page request of a walk for a reactor, by the sequencer of the cluster of a core; `none` where no pager can serve it. It
goes behind every request that already waits (R77). (log 49, DEDUCED) -/
def askPage (walk r core : Nat) (tag : W64 × W32) (va : Nat) (kind : BitVec 2) (isLate code : Bool) (s : State) : Option State :=
  match pagerOf s (bhOfCore core) with
  | none => none
  | some g =>
    let cl := cluOfCore core
    let first := (pageWaiter s g).isNone && (s.re g).spareReqs.isEmpty
    let s := s.modCl cl fun c =>
      { c with pageNo := c.pageNo + 1
               reqs := c.reqs ++ [{ num := c.pageNo % 256, order := s.nextId, va := va, kind := kind, late := isLate, code := code,
                                    reactor := r, core := core, tagt := tag.1, tagm := tag.2, walk := walk }] }
    let s := { s with nextId := s.nextId + 1 }
    some (if first then postPage cl g s else s)

/-! ### Held table reads (R75) -/

/-- Whether the table read that holds a walk has ended "not resident". -/
def readOut (s : State) (id : Nat) : Bool := s.flight.any fun e => e.2 == .heldRead id
/-- The walk goes on from there. -/
def clearOut (id : Nat) (s : State) : State := { s with flight := s.flight.filter fun e => e.2 != .heldRead id }

/-! ### The ends of a translation -/

/-- The cancellation of a formed activation by its translation (R62, R66, R67, R70). -/
def xlateCancel (r cause addr : Nat) (phys : Bool) (peer : Option Nat) (s : State) : State :=
  match (s.re r).pend with
  | none => s
  | some p =>
    let s := dropXlate r p.act s
    let s := errorTo r
      { addr := BitVec.ofNat 64 addr, tagt := p.act.q.tagt, tagm := p.act.q.tagm, phys := phys,
        cause := BitVec.ofNat 8 cause, peer := BitVec.ofNat 32 (peer.getD ((s.re r).core * 4)) } s
    evalDev (devOfBh (bhOfReac r)) (cancelPending r p s)

/-- The same for a running activation. -/
def runCancel (u cause addr : Nat) (phys : Bool) (peer : Option Nat) (s : State) : State :=
  let a := s.act u
  cancelAct u (errorTo a.reactor
    { addr := BitVec.ofNat 64 addr, tagt := a.q.tagt, tagm := a.q.tagm, phys := phys, cause := BitVec.ofNat 8 cause,
      peer := BitVec.ofNat 32 (peer.getD u) } s)

/-- An activation that has been translated becomes ready once every pin is acknowledged (R67, R351). -/
def pinsDone (r : Nat) (s : State) : State :=
  s.modRe r fun x => match x.pend with
    | some p => if p.pinsOut = 0 && x.st == .xlate then { x with st := .ready } else x
    | none => x

/-- The walk of a formed activation (R66, R67, R70). (log 49, DEDUCED) -/
def walkDispatch (id r : Nat) (s0 : State) : State :=
  match (s0.re r).pend with
  | none => s0.endFl id
  | some p =>
    let out := readOut s0 id
    let (x, late) := xlLate (cluOfReac r) r out p.latePage (xlExtents (cluOfReac r) r out s0)
    let s := clearOut id x.st
    match x.stop with
    | some .held => s0
    | some (.cancel c a ph peer) => xlateCancel r c a ph peer s
    | some (.page va k isLate) =>
      (match askPage id r (s.re r).core p.act.q.tag va k isLate false s with
       | none => xlateCancel r 8 (va / 65536 * 65536) false none s
       | some s => (s.setFl id (.walk (.dispatch r) true)).modRe r fun x => { x with st := .pwait })
    | none =>
      let ls := pinList x.leaves late
      match pinLocal (bhOfReac r) ls s with
      | none => s0
      | some (s, pins) =>
        let far := remotePins (bhOfReac r) ls
        let s := far.foldl (fun s l => s.emit (.pin (.dispatch r) l.e l.lvl l.va l.entry none)) (s.endFl id)
        pinsDone r (s.modRe r fun q =>
          { q with st := .xlate
                   pend := some { p with
                     act := { p.act with extents := x.exts, frags := x.frags, pins := pins }
                     lateEnt := late.map fun l => lateWord l.1.va 0 l.2 (leafFrag s l.1.e l.1.lvl)
                     pinsOut := far.length } })

/-- The address trap of an access whose late-bound page is not coming, at the access and with its lane (R73). -/
def missTrap (id u : Nat) (s : State) : State := freezeAt u 0x02 (s.th u).miss.2 (s.th u).miss.1 (s.endFl id)

/-- A late-bound page is not resident (R72, R73): a restartable activation is aborted and requeued; otherwise the thread set
waits for the pager, or takes the address trap where no page is coming, once its earlier work has completed (R185). -/
def lateFault (id u va xi : Nat) (k : BitVec 2) (s0 s : State) : State :=
  let a := s.act u
  if a.restartable then evalDev (devOf u) (abortAct u (some (va, xi, k)) false 0 s)
  else match askPage id a.reactor (coreOf u) a.q.tag va k true false s with
    | none => if s.awaits u then s0 else missTrap id u s
    | some s => s.setFl id (.walk (.lateMiss u va xi k) true)

/-- The walk of a late-bound miss (R71). -/
def walkLate (id u va xi : Nat) (k : BitVec 2) (s0 : State) : State :=
  match lateExt s0 (s0.act u).reactor xi with
  | none => s0
  | some e =>
    let out := readOut s0 id
    match walkPage (cluOf u) out e k true va s0 with
    | (_, .error .held) => s0
    | (s, .error (.cancel c a ph peer)) => runCancel u c a ph peer (clearOut id s)
    | (s, .error (.page ..)) => lateFault id u va xi k s0 (clearOut id s)
    | (s, .ok l) =>
      let s := clearOut id s
      if bhOfPa (leafAddr l.e) ≠ bhOf u then s.setFl id (.pin (.lateMiss u va xi k) l.e l.lvl va l.entry none)
      else match pinLocal (bhOf u) [l] s with
        | none => s0
        | some (s, _) => s.setFl id (.fill u va xi (leafFrag s l.e l.lvl))

/-- A code page that the sequencer has pinned serves its thread set, which waits for it, for the rest of the activation (R216). -/
def codeMapped (id u : Nat) (leaf : W128) (lvl va : Nat) (pinned : Bool) (s : State) : State :=
  ((s.endFl id).modAct u fun a =>
    { a with code := { va := va / lvlSize lvl * lvlSize lvl, size := lvlSize lvl, pa := leafAddr leaf } :: a.code
             pins := if pinned && !isSp (leafAddr leaf) then leafAddr leaf :: a.pins else a.pins }).modTh u
    fun t => if t.mode = .parked id then { t with mode := .run } else t

/-- The fetch finds no code: the address trap; the thread set no longer waits. -/
def codeTrap (id u va : Nat) (s : State) : State :=
  if s.awaits u then s else fetchTrap u (BitVec.ofNat 64 va) (s.endFl id)

/-- The walk of a fetch (R216). -/
def walkCode (id u va : Nat) (s0 : State) : State :=
  match walkSeq s0 (cluOf u) (s0.act u).priv va with
  | (s, .malformed en) => runCancel u 5 en true none s
  | (s, .refused en) => runCancel u 1 va false (some (bhOfPa en * 4096)) s
  | (s, .dead en) => runCancel u 2 va false (some (bhOfPa en * 4096)) s
  | (_, .unmapped) => codeTrap id u va s0
  | (s, .absent) => absent s
  | (s, .held _) => if readOut s0 id then absent (clearOut id s) else s0
  | (s, .leaf e lvl en) =>
    if !pteR e then codeTrap id u va s0
    else if (s.act u).pins.contains (leafAddr e) then
      if tenantOk s e then codeMapped id u e lvl va false s else runCancel u 5 en true none s
    else if bhOfPa (leafAddr e) ≠ bhOf u then s.setFl id (.pin (.code u va) e lvl va en none)
    else if !tenantOk s e then runCancel u 5 en true none s
    else match pinLocal (bhOf u) [{ e := e, lvl := lvl, va := va, entry := en }] s with
      | none => s0
      | some (s, _) => codeMapped id u e lvl va true s
where
  /-- the page is not resident -/
  absent (s : State) : State :=
    match askPage id (s.act u).reactor (coreOf u) (s.act u).q.tag va 1 false true s with
    | none => codeTrap id u va s0
    | some s => s.setFl id (.walk (.code u va) true)

/-- TABLE_WALK_DONE: a walk of the page tables comes back. -/
def execTableWalkDone (id : Nat) (s : State) : Out :=
  .next (match s.fl? id with
  | some (.walk (.dispatch r) false) => walkDispatch id r s
  | some (.walk (.lateMiss u va xi k) false) => walkLate id u va xi k s
  | some (.walk (.code u va) false) => walkCode id u va s
  | _ => s)

/-! ### Pin messages (R62, R67) -/

/-- PIN_MESSAGE: the gate of a frame's bulkhead admits or refuses a pin as it would a load, compares TENANT and attributes,
and counts the pin; at 255 the message waits. (log 50, DEDUCED) -/
def execPinMessage (id : Nat) (s : State) : Out :=
  .next (match s.fl? id with
  | some (.pin w leaf lvl va en none) =>
    let pa := leafAddr leaf
    let cl := match w with
      | .dispatch r | .side r _ => cluOfReac r
      | .lateMiss u .. | .code u _ | .skip u => cluOf u
    let answer (n : Nat) (s : State) : State := s.setFl id (.pin w leaf lvl va en (some n))
    match reach s { unit := cl * 1024, bh := bhOfClu cl, part := s.partOf (bhOfClu cl), priv := false, path := 4 }
        { va := va, pa := pa, n := 1 } .r with
    | .deadPeer _ => answer 2 s
    | .ok =>
      if !tenantOk s leaf then answer 3 s
      else if isSp pa then answer 0 s
      else if pinsAt s pa = 255 then s
      else answer 0 (pinAdd pa s)
    | _ => answer 1 s
  | _ => s)

/-- The record that a refused pin gives (R67, Table 20-4): cause, ADDR, PHYS and target. -/
def pinRefused (leaf : W128) (lvl va entry answer : Nat) : Nat × Nat × Bool × Option Nat :=
  let page := va / lvlSize lvl * lvlSize lvl
  match answer with
  | 1 => (1, page, false, some (unitOfPa (leafAddr leaf)))
  | 2 => (2, page, false, some (unitOfPa (leafAddr leaf)))
  | _ => (5, entry, true, none)

/-- PIN_REPLY: the acknowledgement, or the refusal, of a pin message reaches its sequencer. -/
def execPinReply (id : Nat) (s : State) : Out :=
  .next (match s.fl? id with
  | some (.pin w leaf lvl va en (some n)) =>
    let (c, a, ph, peer) := pinRefused leaf lvl va en n
    match w with
    | .dispatch r =>
      let s := s.endFl id
      if n = 0 then
        pinsDone r (s.modRe r fun x => { x with pend := x.pend.map fun p =>
          { p with pinsOut := p.pinsOut - 1
                   act := { p.act with pins := if isSp (leafAddr leaf) then p.act.pins
                                               else p.act.pins ++ [leafAddr leaf] } } })
      else xlateCancel r c a ph peer s
    | .lateMiss u va xi _ =>
      if n = 0 then s.setFl id (.fill u va xi (leafFrag s leaf lvl)) else runCancel u c a ph peer (s.endFl id)
    | .code u _ => if n = 0 then codeMapped id u leaf lvl va true s else runCancel u c a ph peer (s.endFl id)
    | .side .. | .skip _ => s
  | _ => s)

/-! ### Filling the late translation table (R71, R74, R83) -/

/-- Fills an entry: a free one first, else the least recently used goes, with its pin. -/
def fillLate (core : Nat) (e : W128) (s : State) : State :=
  let l := (s.co core).late
  match (List.range 16).find? fun i => l.all fun x => x.1 != i with
  | some i => s.modCo core fun k => { k with late := (i, e) :: k.late }
  | none => match l.getLast? with
    | some old =>
      let f : W64 := old.2.extractLsb' 0 64
      let pa := (f.extractLsb' 16 36).toNat * 65536
      (if isSp pa then s else pinSub pa s).modCo core fun k => { k with late := (old.1, e) :: k.late.take 15 }
    | none => s

/-- Adds the bytes of an extent that lie in a page to the page's side-table entry (R83): R to RD, W to WR. -/
def sideExtent (base len dir page size pa : Nat) (s : State) : State :=
  let n := min (base + len) (page + size) - max base page
  let s := if dir.testBit 0 then sideAdd pa 88 n s else s
  if dir.testBit 1 then sideAdd pa 48 n s else s

/-- Fills the entry of a late-bound page of a thread set, with its side-table update. -/
def fillFor (u va xi : Nat) (frag : W64) (s : State) : State :=
  let s := match lateExt s (s.act u).reactor xi with
    | some e => let sz := fragSize frag
                sideExtent e.base e.len e.dir (va / sz * sz) sz ((frag.extractLsb' 16 36).toNat * 65536) s
    | none => s
  fillLate (coreOf u) (lateWord va (tsOf u) xi frag) s

/-- LATE_TRANSLATION_FILL: the entry is filled and the thread set goes on to the access. -/
def execLateTranslationFill (id : Nat) (s : State) : Out :=
  .next (match s.fl? id with
  | some (.fill u va xi frag) =>
    (fillFor u va xi frag (s.endFl id)).modTh u fun t =>
      { t with mode := .run, latch := t.latch.map fun l => lateWord va (tsOf u) xi frag :: l }
  | _ => s)

/-! ### Side activations (R77, R368) -/

/-- The trap activation that reactor r receives for thread set v's trap (R368, Table 19-4). -/
def trapAct (s : State) (v order r : Nat) : Act :=
  let t := s.th v
  { reactor := r, kind := .trap, entry := (s.cl (cluOf v)).trapvec, serves := v, serveOrder := order, tarr := t.tfroze,
    sigMode := (s.re r).sigMode
    q := { tagt := (s.act v).q.tagt, tagm := (s.act v).q.tagm, sender := BitVec.ofNat 32 v,
           route := BitVec.ofNat 24 (ridOf r + 0x31 * 65536), flags := 4,
           payload := t.tepc.extractLsb' 0 32 ++ t.tcause.extractLsb' 0 32 } }

/-- The record of an activation that completes as cancelled before a thread set ran it (R399). -/
def sideRec (r : Nat) (a : Act) (s : State) : State :=
  let now := s.ns (bhOfReac r)
  let a := { a with reactor := r, tdisp := now }
  delaySplit (s.re r).core a now (trace (bhOfReac r) 0 (a.record ((s.re r).core * 4) 1 now).bytes s)

/-- A trap activation that completed as cancelled before it ran (R368): its trap entry is placed again at its place, once; the
second time the trapping activation is cancelled, as without a buddy. -/
def trapCancelled (v : Nat) (s : State) : State :=
  if (s.th v).mode != .frozen then s
  else if (s.th v).retried then cancelAct v (noBuddyLog v s)
  else
    let order := (((s.cl (cluOf v)).traps.find? fun e => e.ts == v).map (·.order)).getD 0
    requeueTrap v order false ((s.modTh v fun t => { t with retried := true }).modCl (cluOf v) fun c =>
      { c with traps := c.traps.filter fun e => e.ts != v })

/-- The head of a reactor's page requests: one requeued by an abort, else the oldest waiting entry at port 0x32. -/
def pageHead (x : Reactor) : Option (Pending × Option Entry) :=
  match x.requeued.find? fun p => p.act.kind == .page with
  | some p => some (p, none)
  | none => (x.entries.find? fun e => e.q.port == 0x32 && e.st == .waiting).map fun e =>
    ({ act := { kind := .page, q := e.q, entry := x.entry, tarr := e.tarr }, order := e.ready, age := e.age }, some e)

/-- A page-request activation completes as cancelled before a thread set ran it: it sends no token (R77, R133). (log 77, DEDUCED) -/
def cancelPage (r : Nat) (p : Pending) (e : Option Entry) (s : State) : State :=
  let s := match e with
    | none => s.modRe r fun x => { x with requeued := x.requeued.erase p }
    | some e => freeEntry r e.slot s
  sideRec r p.act s

/-- The tag of a side activation. -/
def sideTag (s : State) (r : Nat) (serves : Option Nat) : W64 × W32 :=
  match serves with
  | some v => (s.act v).q.tag
  | none => ((pageHead (s.re r)).map fun p => p.1.act.q.tag).getD (0, 0)

/-- A side activation whose translation cancels it: its record; a trap's entry is placed again, once; a page request is
dropped; an activation that a move stopped completes as cancelled. -/
def sideCancel (r : Nat) (serves : Option Nat) (cause addr : Nat) (phys : Bool) (peer : Option Nat) (s : State) : State :=
  let t := sideTag s r serves
  let s := errorTo r
    { addr := BitVec.ofNat 64 addr, tagt := t.1, tagm := t.2, phys := phys, cause := BitVec.ofNat 8 cause,
      peer := BitVec.ofNat 32 (peer.getD ((s.re r).core * 4)) } s
  match serves with
  | some v =>
    if (s.th v).mode = .halted then cancelAct v s else trapCancelled v (sideRec r (trapAct s v 0 r) s)
  | none => match pageHead (s.re r) with
    | some (p, e) => cancelPage r p e s
    | none => s

/-! ### The pager's answer (R78) -/

/-- The walk that a page request lets go on, when it still waits. -/
def PageReq.waiting (q : PageReq) (s : State) : Bool :=
  match s.fl? q.walk with
  | some (.walk _ true) => true
  | _ => false

/-- A thaw's walk for word 0 ends (R329): the thaw looks again, at a page that is resident, or, where the pager has declined it, to
return 2. -/
def skipEnds (id u : Nat) (no : Bool) (s : State) : State :=
  let s := s.endFl id
  let s := { s with flight := s.flight.map fun (e : Nat × Flight) => match e.2 with
    | .turn ts t g pc n => (e.1, .turn ts t g pc (n || (no && ts == u)))
    | _ => e }
  s.modTh u fun t => if t.mode = .stalled id then { t with mode := .run } else t

/-- What a declined page does (R70, R73, R216). -/
def declined (q : PageReq) (s : State) : State :=
  match s.fl? q.walk with
  | some (.walk (.dispatch r) _) => xlateCancel r 8 (q.va / 65536 * 65536) false none s
  | some (.walk (.lateMiss u ..) _) => missTrap q.walk u s
  | some (.walk (.code u va) _) => fetchTrap u (BitVec.ofNat 64 va) (s.endFl q.walk)
  | some (.walk (.side r v) _) => sideCancel r v 8 (q.va / 65536 * 65536) false none (s.endFl q.walk)
  | some (.walk (.skip u) _) => skipEnds q.walk u true s
  | _ => s

/-- Whether the earlier work of a thread set that a declined page is to trap is still to complete (R185). -/
def PageReq.holdsOn (q : PageReq) (s : State) : Bool :=
  match s.fl? q.walk with
  | some (.walk (.code v _) _) | some (.walk (.lateMiss v ..) _) => s.awaits v
  | _ => false

/-- Takes a page request off its sequencer. -/
def dropReq (cl : Nat) (q : PageReq) (s : State) : State :=
  s.modCl cl fun c => { c with reqs := c.reqs.filter fun x => x.walk != q.walk }

/-- A page request that waits at a sequencer for a spare entry, once no pager can serve it: it ends as a declined one (R77). -/
def pagerLost (cl : Nat) (s : State) : Out :=
  .next (match (s.cl cl).reqs.find? fun q => !q.posted && !q.holdsOn s with
  | some q => if (pagerOf s (bhOfClu cl)).isSome then s else declined q (dropReq cl q s)
  | none => s)

/-- PAGER_ANSWER_ARRIVAL: the named cluster's sequencer matches the answer to its waiting request; without a match the
pager's wrsys ends with a view error (R78). -/
def execPagerAnswerArrival (id : Nat) (s : State) : Out :=
  .next (match s.fl? id with
  | some (.answer sender num no u) =>
    let cl := cluOf sender
    let match? (q : PageReq) : Bool := q.posted && q.num == num && q.core * 4 == sender && q.waiting s
    let wake (s : State) : State := if (s.th u).mode = .stalled id then s.modTh u fun t => { t with mode := .run } else s
    match (s.cl cl).reqs.find? match? with
    | none => wake ((s.endFl id).modTh u fun t => if t.mode = .stalled id then { t with ve := true, vec := 2 } else t)
    | some q =>
      if no && q.holdsOn s then s
      else
        let s := dropReq cl q (wake (s.endFl id))
        if no then declined q s
        else match s.fl? q.walk with
          | some (.walk (.skip u) _) => skipEnds q.walk u false s
          | some (.walk (.dispatch r) _) => (s.setFl q.walk (.walk (.dispatch r) false)).modRe r fun x => { x with st := .xlate }
          | some (.walk w _) => s.setFl q.walk (.walk w false)
          | _ => s
  | _ => s)

end Sys2Proof.Machine
end

