-- ==== Sys2Proof/Machine/Sequencer.lean ====
section
/-! DEFINITION. Sequencer.lean: arrival (R361), free-entry counts and spares (R344), dispatch and
aging (R354, R355, R369), trap receivers (R366 to R368), and forwarding (R374, R375). -/

namespace Sys2Proof.Machine

/-! ### Arrival and free entries -/

/-- EVENT_ARRIVAL: an entry reaches its sequencer and is indexed, forwarded or discarded (R361, R375). (log 14, DESIGN CHOICE) -/
def execEventArrival (id : Nat) (s : State) : Out :=
  .next (match s.fl? id with
  | some (.entry r q .unheld) =>
    -- a token that no unit holds yet takes a spare of its target, or waits for one
    let k := liveKey s 8 r
    if s.hasRe k then
      (if (s.re k).spares = 0 then s
       else arrive 8 r q .spare ((s.endFl id).modRe k fun x => { x with spares := x.spares - 1 }))
    else arrive 8 r q .unheld (s.endFl id)
  | some (.entry r q o) =>
    match o.sender with
    | none => arrive 8 r q o (s.endFl id)
    | some w =>
      -- its target has been declared dead: it is discarded with a record, and its unit is restored (R121, Table 06-1)
      if bhOfReac w ≠ bhOfReac r ∧ eventDead s (bhOfReac w) (bhOfReac r) then
        restoreUnit o (errorTo w { tagt := q.tagt, tagm := q.tagm, cause := 2,
                                   peer := BitVec.ofNat 32 (((s.connOf o).map (·.tcore)).getD 0 * 4) } (s.endFl id))
      -- the gate of a bulkhead that holds the sender's device dead discards it (R424); a unit that it holds of the target's
      -- entries is the target's again (R344)
      else if devOfBh (bhOfReac w) ≠ devOfBh (bhOfReac r) ∧ (s.bu (bhOfReac r)).deadMap.contains (devOfBh (bhOfReac w)) then
        giveBack r o (s.endFl id)
      else arrive 8 r q o (s.endFl id)
  | _ => s)
where
  /-- the unit of F that an event used is its connection's again -/
  restoreUnit (o : Owner) (s : State) : State :=
    match o with
    | .conn q i => modConn q i (fun c => { c with f := c.f + 1 }) s
    | _ => s

/-- Whether a bulkhead's gate discards what comes from another device, which it holds dead (R424). -/
def gateDrops (s : State) (bh fromBh : Nat) : Bool :=
  devOfBh bh != devOfBh fromBh && (s.bu bh).deadMap.contains (devOfBh fromBh)

/-- The bulkhead of a connection's target. -/
def connBh (s : State) (r i : Nat) : Nat := (((s.re r).conns[i]?).map fun c => bhOfReac (liveKey s 8 c.target)).getD (bhOfReac r)

/-- CREDIT_RETURN: a freed entry's unit comes back, and what waits on the connection leaves (R344). (log 14, DESIGN CHOICE) -/
def execCreditReturn (id : Nat) (s : State) : Out :=
  .next (match s.fl? id with
  | some (.credit r i) =>
    if gateDrops s (bhOfReac r) (connBh s r i) then s.endFl id
    else drainConn (waitingOn s r i).length r i (modConn r i (fun c => { c with f := c.f + 1 }) (s.endFl id))
  | _ => s)

/-- SPARE_REQUEST: an event that waits at F = 0 asks its target for a spare entry, once (R344); one that can leave by now does. -/
def execSpareRequest (id : Nat) (s : State) : Out :=
  .next (match s.fl? id with
  | some (.event m) =>
    (match (s.re m.reactor).conns[m.conn]? with
     | some c =>
       if c.f ≠ 0 ∨ c.granted ∨ c.dead then drainConn (waitingOn s m.reactor m.conn).length m.reactor m.conn s
       else if c.asked then s
       else
         let s := modConn m.reactor m.conn (fun c => { c with asked := true }) s
         if gateDrops s (connBh s m.reactor m.conn) (bhOfReac m.reactor) then s
         else s.modRe (liveKey s 4 c.target) fun x => { x with spareReqs := x.spareReqs ++ [(m.reactor, m.conn)] }
     | none => s)
  | _ => s)

/-- SPARE_GRANT: a target with a free spare grants it to the oldest request, and the waiting event leaves (R344); with no
such request, a waiting page request takes it (R77). (log 83, DESIGN CHOICE) -/
def execSpareGrant (r : Nat) (s : State) : Out :=
  .next (if (s.re r).spares = 0 then s
  else match (s.re r).spareReqs with
    | (q, i) :: rest =>
      let s := s.modRe r fun x => { x with spareReqs := rest }
      if (((s.re q).conns[i]?).map fun c => c.asked && !c.dead).getD false then
        let s := s.modRe r fun x => { x with spares := x.spares - 1 }
        if gateDrops s (bhOfReac q) (bhOfReac r) then s
        else drainConn 1 q i (modConn q i (fun c => { c with granted := true }) s)
      else s
    | [] => match pageWaiter s r with
      | some cl => postPage cl r s
      | none => s)

/-! ### Trap receivers (R366, R367) -/

def State.pairOf (s : State) (core : Nat) : W64 := Map.get 0 (s.cl (cluOfCore core)).pairs (core % 256)
/-- A core that the pairing table marks as a supervisor core (R322). (log 24, DEDUCED) -/
def State.supervisor (s : State) (core : Nat) : Bool := (s.pairOf core).getLsbD 49 && (s.pairOf core).getLsbD 48

/-- A buddy: core index and reactor id; the receiver when that core holds that reactor and is neither sealed nor killed. -/
def buddy (s : State) (clu idx rid : Nat) : Option Nat :=
  let core := clu * 256 + idx
  let k := s.co core
  if s.hasRe (reacKey clu rid) && (s.re (reacKey clu rid)).core == core && !k.isSealed && !k.killed
  then some (reacKey clu rid) else none

/-- The primary and backup receivers for a thread set, where usable. -/
def primaryOf (s : State) (ts : Nat) : Option Nat :=
  let p := s.pairOf (coreOf ts)
  if p.getLsbD 49 then buddy s (cluOf ts) (p.extractLsb' 0 8).toNat (p.extractLsb' 16 16).toNat else none
def backupOf (s : State) (ts : Nat) : Option Nat :=
  let p := s.pairOf (coreOf ts)
  if p.getLsbD 49 then buddy s (cluOf ts) (p.extractLsb' 8 8).toNat (p.extractLsb' 32 16).toNat else none
/-- The receiver that a trap entry waits for. (log 47, DEDUCED) -/
def receiverOf (s : State) (e : TrapEntry) : Option Nat :=
  match primaryOf s e.ts, backupOf s e.ts with
  | some p, some b => if e.backup then some b else some p
  | some p, none => some p
  | none, b => b

/-- Step 3 of R367: the trapping activation completes as cancelled, with a "no buddy" record. (log 47, DEDUCED) -/
def noBuddy (ts : Nat) (s : State) : State := cancelAct ts (noBuddyLog ts s)

/-- BUDDY_TIMEOUT: no thread set of the primary has freed within 2^16 cycles, so the backup is taken; with no usable buddy
the activation is cancelled (R367). (log 47, DEDUCED) -/
def execBuddyTimeout (ts : Nat) (s : State) : Out :=
  .next (match (s.cl (cluOf ts)).traps.find? fun e => e.ts == ts with
  | none => s
  | some e =>
    match receiverOf s e with
    | none => noBuddy ts s
    | some _ =>
      if (backupOf s ts).isSome && !e.backup then
        s.modCl (cluOf ts) fun c => { c with traps := c.traps.map fun x => if x.ts = ts then { x with backup := true } else x }
      else s)

/-! ### Dispatch -/

/-- One step up from an age, aged past priority 3 being the last. -/
def Reactor.older (x : Reactor) (a : Nat) : Nat := min (a + 1) (4 - x.prio)
/-- PRIORITY_AGING: a ready activation of a reactor, the translated one or the head of its page requests, has been ready for a
further 2^16 cycles: it rises by one, and ages past 3 (R355). -/
def execPriorityAging (a : Aging) (s : State) : Out :=
  .next (match a with
  | .page r => s.modRe r fun x => match pageHead x with
    | some (p, none) => { x with requeued := x.requeued.map fun q => if q = p then { q with age := x.older q.age } else q }
    | some (_, some e) =>
      { x with entries := x.entries.map fun y => if y.slot = e.slot then { y with age := x.older y.age } else y }
    | none => x
  | .formed r => s.modRe r fun x =>
    if x.st == .xlate || x.st == .pwait || x.st == .ready then
      { x with pend := x.pend.map fun p => { p with age := x.older p.age } }
    else x)

/-- An in-flight command of a thread set that names its accumulators: its thread set is not yet used again (R291). -/
def accHeld (s : State) (u : Nat) : Bool :=
  s.flight.any fun e => match e.2 with
    | .engine ts _ _ _ _ _ _ c _ => ts == u && c.op != 0xB7 && c.op != 0xB9
    | _ => false

/-- The thread sets of a core that are free, lowest first (R354). -/
def freeSets (s : State) (core : Nat) : List Nat :=
  ((List.range 4).map (core * 4 + ·)).filter fun u =>
    (s.th u).mode == .free && (s.th u).act.isNone && !accHeld s u

/-- A ready activation. -/
inductive Cand where
  | trap (e : TrapEntry) (r : Nat)
  | ord (r : Nat)
  | page (r : Nat)
  deriving DecidableEq, Repr

/-- Whether a side activation of a kind runs for a reactor, or waits for the pager. -/
def sideRuns (s : State) (r : Nat) (k : ActKind) : Bool :=
  (s.thr.any fun t => t.2.act.any fun a => a.kind == k && a.reactor == r) ||
    s.flight.any fun e => match e.2 with
      | .walk (.side q v) true => q == r && v.isSome == (k == .trap)
      | _ => false

/-- The first trap entry that a core may take: one at a time for each receiver, in the order of the freezes (R368); an instance
that is being disarmed takes none (R138), nor does one whose earlier activations' accesses are still to be performed (R99). -/
def trapCand (s : State) (core : Nat) : Option Cand :=
  let l := (s.cl (cluOfCore core)).traps.filterMap fun e =>
    (receiverOf s e).bind fun r =>
      if (s.re r).core == core && !(s.re r).disarming && (s.re r).st != .move && !sideRuns s r .trap && !reactorOut s r then some (e, r) else none
  (l.foldl (fun m e => match m with
    | none => some e
    | some k => if e.1.order < k.1.order then some e else some k) none).map fun e => .trap e.1 e.2

/-- Rank of a ready activation: aged, effective priority, tag, order (R354). -/
structure Rank where
  aged : Bool
  prio : Nat
  tag : W64 × W32
  order : Nat

def rankOf (x : Reactor) (p : Pending) : Rank :=
  { aged := 4 ≤ x.prio + p.age, prio := min 3 (x.prio + p.age), tag := p.act.q.tag, order := p.order }

/-- Whether one rank is served before another. -/
def Rank.before (a b : Rank) : Bool :=
  if a.aged != b.aged then a.aged
  else if a.aged then a.order < b.order
  else if a.prio != b.prio then b.prio < a.prio
  else if tagLt a.tag b.tag then true
  else if tagLt b.tag a.tag then false
  else a.order < b.order

/-- The other ready activations of a core with their ranks: translated ones, and the heads of page requests (R77). A reactor whose
earlier activations' accesses are still to be performed, or their commands to post, has none yet (R99, R218). -/
def otherCands (s : State) (core : Nat) : List (Cand × Rank) :=
  (s.reac.filter fun e => e.2.core == core && !e.2.disarming && !e.2.stranded && !reactorOut s e.1).flatMap fun e =>
    let x := e.2
    (match x.pend with
      | some p => if x.st == .ready then [(.ord e.1, rankOf x p)] else []
      | none => []) ++
    (match pageHead x with
      | some (p, _) => if sideRuns s e.1 .page || x.st == .move || (s.co x.core).isSealed then [] else [(.page e.1, rankOf x p)]
      | none => [])

/-- The activation that a core dispatches next (R354); while the partition is stopped only trap activations go on. (log 51, DEDUCED) -/
def pickCand (s : State) (core : Nat) : Option Cand :=
  match trapCand s core with
  | some c => some c
  | none =>
    if !s.running (bhOfCore core) then none
    else ((otherCands s core).foldl (fun (m : Option (Cand × Rank)) c => match m with
      | none => some c
      | some k => if c.2.before k.2 then some c else some k) none).map (·.1)

/-- The activation record's bytes 0x00 to 0x33, or a trap record's (Table 07-4). -/
def recordBytes (a : Act) (inst gang : Nat) (h : W64 × W32) : List Byte :=
  fields [(8, a.q.tagt.toNat), (4, a.q.tagm.toNat), (4, a.q.sender.toNat), (1, a.q.port),
    (1, a.q.flags.toNat ||| (if a.kind = .late then 1 else 0)), (2, a.joinq.length), (4, a.q.sendt.toNat),
    (8, a.q.payload.toNat), (8, h.1.toNat), (4, h.2.toNat), (4, inst), (4, gang)]

/-- The side-table updates of a dispatch: each page's bytes that each declared extent covers (R83). -/
def sideDispatch (a : Act) (s : State) : State :=
  (a.extents.take 8).foldl (fun s e =>
    if !e.getLsbD 19 then s
    else
      let base := extBase e
      let fs := (a.frags.drop (e.extractLsb' 0 9).toNat).take (e.extractLsb' 9 7).toNat
      (fs.foldl (fun (acc : State × Nat) f =>
        let sz := fragSize f
        let page := acc.2 / sz * sz
        (sideExtent base (extLast e + 1 - base) (e.extractLsb' 22 2).toNat page sz
          ((f.extractLsb' 16 36).toNat * 65536) acc.1, page + sz)) (s, base)).1) s

/-- Starts an activation on a thread set (R140, R190, R288, R325): its registers, and what the core keeps for it. (log 24, DEDUCED) -/
def startOn (u : Nat) (a : Act) (off : Nat) (s : State) : State :=
  let rec_ := 2 ^ 60 + (s.re a.reactor).ctl + off
  let w (i : Nat) : Nat := (a.q.payload.extractLsb' (32 * i) 32).toNat
  let s := s.modTh u fun t =>
    { t with r := { scalar := BitVec.ofNat 2048 (rec_ + w 0 * 2 ^ 64 + w 1 * 2 ^ 128) }
             ctr := 0, pc := a.entry &&& ~~~3, arp := BitVec.ofNat 64 rec_, repst := 0, spill := 0, ve := false, vec := 0
             acc := Vector.replicate 4 {}, mode := .run, hist := 0, bar := none, blk := none, owner := some a.reactor
             gen := t.gen + 1, latch := none, retried := false
             act := some { a with tdisp := s.ns (bhOf u), priv := a.kind == .trap || s.supervisor (coreOf u) } }
  countEv u 0x03 1 s

/-- Fills the late page that a retry needs before its first instruction; its pin becomes the entry's (R72). -/
def fillRetry (u : Nat) (late : Option W128) (s : State) : State :=
  match late with
  | none => s
  | some e =>
    let f : W64 := e.extractLsb' 0 64
    let s := s.modAct u fun a => { a with pins := a.pins.erase ((f.extractLsb' 16 36).toNat * 65536) }
    fillFor u ((e.extractLsb' 80 48).toNat * 65536) (e.extractLsb' 77 1).toNat f s

/-- Dispatches the formed activation of a reactor (Table 18-4): record, join buffer, entries freed, horizon. -/
def dispatchOrd (u r : Nat) (s : State) : State :=
  match (s.re r).pend with
  | none => s
  | some p =>
    let x := s.re r
    let a := { p.act with sigMode := if p.act.attempt = 0 then x.sigMode else p.act.sigMode }
    let s := s.put (x.ctlPa 0) (recordBytes a x.inst (x.gang * 4096 + x.record) (x.horizon.getD (0, 0)))
    let js := a.joinq.mergeSort fun p q => tagLe p.tag q.tag
    let s := s.put (x.ctlPa 0x200) (js.flatMap QEntry.bytes)
    let s := p.slots.foldl (fun s i => freeEntry r i s) s
    let s := s.modRe r fun x =>
      { x with pend := none, st := .run, runTs := some u
               horizon := if a.kind == .late then x.horizon else raiseHorizon x.horizon a.q.tag }
    fillRetry u p.lateEnt (sideDispatch a (startOn u a 0 s))

/-- The pins of a side activation, judged at its dispatch; the first refusal, or `none` in the first place while a page
stands at 255 pins. -/
def pinSide (bh cl : Nat) (ls : List Leaf) (s : State) : Option (State × List Nat × Option XStop) :=
  ls.foldl (fun acc l => match acc with
    | none => none
    | some (s, ps, some e) => some (s, ps, some e)
    | some (s, ps, none) =>
      let pa := leafAddr l.e
      let page := l.va / lvlSize l.lvl * lvlSize l.lvl
      let bad (c a : Nat) (ph : Bool) (pr : Option Nat) := some (s, ps, some (.cancel c a ph pr))
      match if bhOfPa pa = bh then .ok
            else reach s { unit := cl * 1024, bh := bh, part := s.partOf bh, priv := false, path := 4 }
              { va := l.va, pa := pa, n := 1 } .r with
      | .deadPeer _ => bad 2 page false (some (unitOfPa pa))
      | .ok =>
        if !tenantOk s l.e then bad 5 l.entry true none
        else if isSp pa then some (s, ps, none)
        else if pinsAt s pa = 255 then none
        else some (pinAdd pa s, ps ++ [pa], none)
      | _ => bad 1 page false (some (unitOfPa pa))) (some (s, [], none))

/-- Translates a side activation of a reactor, for a core, at its dispatch (R65 to R67, R70) and goes on with `go`; a page that is
not resident is asked for and the activation waits, as it does for a held table read (R75). (log 48, DEDUCED) -/
def sideXlate (r core : Nat) (serves : Option Nat) (late : Option (Nat × Nat × BitVec 2))
    (go : List W128 → List W64 → List Nat → Option W128 → State → State) (s0 : State) : State :=
  let mine := (s0.flight.find? fun e => e.2 == .walk (.side r serves) false).map (·.1)
  let out := (mine.map (readOut s0)).getD false
  let fresh (s : State) : State := match mine with
    | some id => clearOut id (s.endFl id)
    | none => s
  let cl := cluOfCore core
  let (x, lt) := xlLate cl r out late (xlExtents cl r out s0)
  let s := fresh x.st
  match x.stop with
  | some .held => if mine.isSome then s0 else s0.emit (.walk (.side r serves) false)
  | some (.cancel c a ph pr) => sideCancel r serves c a ph pr s
  | some (.page va k isLate) =>
    (match askPage s.nextId r core (sideTag s r serves) va k isLate false (s.emit (.walk (.side r serves) true)) with
     | none => sideCancel r serves 8 (va / 65536 * 65536) false none s
     | some s => s)
  | none =>
    match pinSide (bhOfCore core) cl (pinList x.leaves lt) s with
    | none => s0
    | some (s', ps, some (.cancel c a ph pr)) => sideCancel r serves c a ph pr (ps.foldl (fun s p => pinSub p s) s')
    | some (s', ps, _) => go x.exts x.frags ps (lt.map fun l => lateWord l.1.va 0 l.2 (leafFrag s l.1.e l.1.lvl)) s'

/-- Dispatches a trap activation for a trap entry (R368, R369). (log 48, DEDUCED) -/
def dispatchTrap (u : Nat) (e : TrapEntry) (r : Nat) (s : State) : State :=
  sideXlate r (coreOf u) (some e.ts) e.latePage (fun exts frags pins late s =>
    let v := s.th e.ts
    let va := s.act e.ts
    let x := s.re r
    let from_ := s.re va.reactor
    let a : Act := { e.again.getD (trapAct s e.ts e.order r) with reactor := r, extents := exts, frags := frags, pins := pins }
    let s := s.put (x.ctlPa 0x100) (recordBytes a from_.inst (from_.gang * 4096 + from_.record) (0, 0) ++ leBytes 4 0)
    let s := s.put (x.ctlPa 0x140) (fields [(8, v.tcause.toNat), (8, v.tval.toNat), (8, v.tepc.toNat), (8, v.tstat.toNat)])
    let s := s.modCl (cluOf e.ts) fun c => { c with traps := c.traps.filter fun y => y.ts != e.ts }
    fillRetry u late (sideDispatch a (startOn u a 0x100 s))) s

/-- Dispatches the next page-request activation of a pager (R77): it changes neither horizon nor state of the reactor. An entry
that reads back as STRUCTURAL is discarded, and the next activation of the pager completes as cancelled (R342). (log 48, DEDUCED) -/
def dispatchPage (u r : Nat) (s : State) : State :=
  match pageHead (s.re r) with
  | none => s
  | some (p, e) =>
    let s := match e with
      | some y => countFix (slotPa (s.re r) y.slot) (readLine s (slotPa (s.re r) y.slot) 32).2.2 s
      | none => s
    match e.filter (entryPoisoned s (s.re r)) with
    | some y => (freeEntry r y.slot (poisonRec r y s)).modRe r fun x => { x with poisonNext := true }
    | none =>
      if (s.re r).poisonNext then cancelPage r p e (s.modRe r fun x => { x with poisonNext := false })
      else sideXlate r (coreOf u) none p.latePage (fun exts frags pins late s =>
        let x := s.re r
        let a := { p.act with reactor := r, entry := x.entry, extents := exts, frags := frags, pins := pins
                              sigMode := if p.act.attempt = 0 then x.sigMode else p.act.sigMode }
        let s := s.put (x.ctlPa 0) (recordBytes a x.inst (x.gang * 4096 + x.record) (x.horizon.getD (0, 0)))
        let s := match e with
          | some e => freeEntry r e.slot s
          | none => s.modRe r fun x => { x with requeued := x.requeued.erase p }
        fillRetry u late (sideDispatch a (startOn u a 0 s))) s

/-- DISPATCH: the lowest free thread set of a core takes the first ready activation (R354). A bulkhead in reset or a killed core
dispatches nothing (R388, R394), nor does a core whose clock is gated (R442). (log 51, DEDUCED) -/
def execDispatch (core : Nat) (s : State) : Out :=
  .next (if (s.bu (bhOfCore core)).reset || (s.bu (bhOfCore core)).pwrSt != 0 || (s.co core).killed then s
  else match freeSets s core, pickCand s core with
    | u :: _, some (.trap e r) => dispatchTrap u e r s
    | u :: _, some (.ord r) => dispatchOrd u r s
    | u :: _, some (.page r) => dispatchPage u r s
    | _, _ => s)

/-! ### Forwarding (R374, R375) -/

/-- FORWARD_EXPIRY: an entry is freed when T − BORN reaches 2^20, and its notices without an acknowledgement end with it: the
connections that they were for stay unusable (R375). -/
def execForwardExpiry (cl i : Nat) (s : State) : Out :=
  .next (match (s.cl cl).fwd.find? fun e => e.1 == i with
  | some (_, w) =>
    if 2 ^ 20 ≤ (s.ticks (bhOfClu cl) + 2 ^ 32 - w.born.toNat) % 2 ^ 32 then
      { s with flight := s.flight.filter fun e => match e.2 with
          | .notice _ _ c k => !(c == cl && k == i)
          | .noticeAck c k _ => !(c == cl && k == i)
          | _ => true }.modCl cl fun c => { c with fwd := c.fwd.filter fun e => e.1 != i }
    else s
  | none => s)

/-- Whether the owner of a connection, reactor r, is dead to the bulkhead that a reactor has moved to, or sealed: it acknowledges by
default (R375). -/
def ownerGone (s : State) (bh r : Nat) : Bool := eventDead s bh (bhOfReac r) || (s.bu (bhOfReac r)).reset || (s.co (s.re r).core).isSealed

/-- REWRITE_NOTICE: the owner of a connection sends later events to the new place, and acknowledges; the host ingress is an
owner too (index 64). A connection that a later notice has already brought to the reactor keeps its target. A notice from a device
that the owner's gate holds dead is discarded (R375, R424). (log 40, DEDUCED) -/
def execRewriteNotice (id : Nat) (s : State) : Out :=
  .next (match s.fl? id with
  | some (.notice r i cl slot) =>
    let s0 := s.setFl id (.noticeAck cl slot (bhOfReac r))
    (match (s.cl cl).fwd.find? fun e => e.1 == slot with
     | some (_, w) =>
       let k := reacKey (cluOf w.ncoord) w.nrid
       if i ≠ 64 ∧ ownerGone s (bhOf w.ncoord) r then s.setFl id (.noticeAck cl slot (bhOfClu cl))
       else if gateDrops s (bhOfReac r) (bhOf w.ncoord) then s.endFl id
       else if i = 64 then s0.modDe (devOfBh (bhOfClu cl)) fun d =>
         { d with moved := (cl * 256 + w.ocore, k) :: d.moved.filter fun (m : Nat × Nat) => m.1 != cl * 256 + w.ocore }
       else modConn r i (fun c => if s0.hasRe c.target then c else { c with target := k, tcore := coreOf w.ncoord }) s0
     | none => s0)
  | _ => s)

/-- REWRITE_ACK: PEND falls by one; at zero the forwarding entry is freed. That of an owner which has died since counts as well: it
acknowledges by default (R375). -/
def execRewriteAck (id : Nat) (s : State) : Out :=
  .next (match s.fl? id with
  | some (.noticeAck cl slot _) =>
    (s.endFl id).modCl cl fun c => { c with fwd := c.fwd.filterMap fun (e : Nat × Fwd) =>
      if e.1 = slot then (if e.2.pend ≤ 1 then none else some (e.1, { e.2 with pend := e.2.pend - 1 })) else some e }
  | _ => s)

end Sys2Proof.Machine
end

