-- ==== Sys2Proof/Machine/Migrate.lean ====
section
/-! DEFINITION. Migrate.lean: moving a reactor to another core (R331, R372 to R375), and the migration of pages (R80 to R82,
R84). -/

namespace Sys2Proof.Machine

/-! ### Room at a destination (R331 status 3, Table 19-7 step 1) -/

/-- The ranges that a reactor occupies on its core; a move keeps every offset, so that addresses held by a stopped
activation stay good. -/
def Reactor.ranges (x : Reactor) : List (Nat × Nat) :=
  x.regions.map (fun g => (g.2.1, g.2.2)) ++ [(x.ctl, 1024), (x.ring, 32 * x.depth), (x.cq, 1024), (x.eq, 1024)]

/-- Whether a core has room for a reactor: its offsets, its bank formats, and a place among the 16. (log 26, DEDUCED) -/
def hasRoom (s : State) (x : Reactor) (core : Nat) : Bool :=
  let k := s.co core
  let used := usedOn s core
  let taken (b : Nat) : Bool := used.any fun u => (banksOf u.1 u.2).contains b
  !k.retired && !k.killed && !k.isSealed && (placedOn s core).length < 16 &&
    (x.ranges.all fun g => clearOf used g.1 g.2) &&
    (x.banks.all fun b => !taken b || fmtOn s core b == s.bfmt x.core b) &&
    ((x.ranges.drop x.regions.length).all fun g => (banksOf g.1 g.2).all fun b =>
      x.banks.contains b || (fmtOn s core b).extractLsb' 0 8 ≤ 4)

/-! ### Renaming and copying (steps 6 and 7) -/

def Owner.rename (f : Nat → Nat) : Owner → Owner
  | .conn r i => .conn (f r) i
  | .spareOf r i => .spareOf (f r) i
  | o => o

def Act.rename (f : Nat → Nat) (a : Act) : Act :=
  { a with reactor := f a.reactor, from_ := a.from_.map fun (q : Option Nat) => q.map f }

/-- Work in flight that a moved reactor owns takes its new key; entries on their way to it keep the old one and are
forwarded (R375). -/
def Flight.rename (f : Nat → Nat) : Flight → Flight
  | .store q => .store { q with reactor := f q.reactor }
  | .weevil q => .weevil { q with reactor := f q.reactor }
  | .event m => .event { m with reactor := f m.reactor }
  | .entry r q o => .entry r q (o.rename f)
  | .credit r i => .credit (f r) i
  | .notice r i cl k => .notice (f r) i cl k
  | w => w

/-- Every record that names reactor r names k instead. -/
def renameReac (r k : Nat) (s : State) : State :=
  let f (q : Nat) : Nat := if q = r then k else q
  let x := { s.re r with names := r :: (s.re r).names }
  let reac := (Map.set (Map.del s.reac r) k x).map fun (e : Nat × Reactor) =>
    (e.1, { e.2 with entries := e.2.entries.map fun (y : Entry) => { y with owner := y.owner.rename f }
                     pend := e.2.pend.map fun (p : Pending) => { p with act := p.act.rename f }
                     requeued := e.2.requeued.map fun (p : Pending) => { p with act := p.act.rename f }
                     spareReqs := e.2.spareReqs.map fun (p : Nat × Nat) => (f p.1, p.2) })
  { s with
    reac := reac
    dev := s.dev.map fun (e : Nat × Device) => (e.1, { e.2 with moved := e.2.moved.map fun (m : Nat × Nat) => (m.1, f m.2) })
    flight := s.flight.map fun (e : Nat × Flight) => (e.1, e.2.rename f)
    thr := s.thr.map fun (e : Nat × Thread) =>
      (e.1, { e.2 with owner := e.2.owner.map f, act := e.2.act.map (Act.rename f) })
    part := s.part.map fun (e : Nat × Partition) =>
      (e.1, { e.2 with gangs := e.2.gangs.map fun (g : Gang) => { g with keys := g.keys.map f } })
    bh := s.bh.map fun (e : Nat × Bulkhead) =>
      (e.1, { e.2 with mwatch := e.2.mwatch.map fun (w : Nat × MWatch) => (w.1, { w.2 with owner := f w.2.owner }) }) }

/-- Copies a range of scratchpad by sector, with its poison and bit errors (R55, R372 step 6). -/
def copyRange (src dst n : Nat) (s : State) : State :=
  (List.range (n / 64)).foldl (fun s i => (copySector s (src + 64 * i) (dst + 64 * i)).1) s

/-- The lowest free forwarding entry of a cluster (R374). -/
def freeFwd (s : State) (cl : Nat) : Option Nat :=
  (List.range 64).find? fun i => (s.cl cl).fwd.all fun e => e.1 != i

/-- The owners of the queue entries of a reactor: each connection that names it, by a name that an earlier move has left too, and
the host ingress (R343, R375). -/
def ownersOf (s : State) (r : Nat) : List (Nat × Nat) :=
  (s.reac.flatMap fun e =>
    (e.2.conns.zipIdx.filter fun c => c.1.valid && liveKey s 8 c.1.target == r).map fun c => (e.1, c.2)) ++
    (if (s.re r).hostrx then [(r, 64)] else [])

/-- Steps 6 to 8 of Table 19-7: bank formats and copies, the takeover under a new key, the forwarding entry in slot `slot`
and the rewrite notices. The reactor enters HOLD, or stays in STOP; the new key is returned. -/
def relocate (r dst slot : Nat) (s : State) : State × Nat :=
  let x := s.re r
  let src := x.core
  let k := reacKey (cluOfCore dst) (freeRid s (cluOfCore dst) [])
  let s := x.banks.foldl (fun s b => s.modCo dst fun c => { c with bfmt := Map.set c.bfmt b (s.bfmt src b) }) s
  let s := x.ranges.foldl (fun s g => copyRange (spAddr src g.1) (spAddr dst g.1) g.2 s) s
  -- events in the send queue go with their reactor
  let mine := (s.flight.filter fun (e : Nat × Flight) => match e.2 with
    | .event m => m.reactor == r
    | _ => false).map (·.1)
  let s := (s.modCo src fun c => { c with sendq := c.sendq.filter fun i => !mine.contains i }).modCo dst fun c =>
    { c with sendq := c.sendq ++ mine }
  let owners := (ownersOf s r).map fun o => (if o.1 = r then k else o.1, o.2)
  let s := renameReac r k s
  let s := s.modRe k fun x => { x with core := dst, st := if x.kept || x.st == .stop then .stop else .hold, kept := false }
  let cl := cluOfReac r
  let s := if owners.isEmpty then s else s.modCl cl fun c => { c with fwd := c.fwd ++
    [(slot, { ocore := src % 256, orid := ridOf r, ncoord := dst * 4, nrid := ridOf k, pend := owners.length,
              born := BitVec.ofNat 32 (s.ticks (bhOfClu cl)) })] }
  let s := owners.foldl (fun s o =>
    if o.2 ≠ 64 ∧ ownerGone s (bhOfReac k) o.1 then s.emit (.noticeAck cl slot (bhOfReac k)) else s.emit (.notice o.1 o.2 cl slot)) s
  (s, k)

/-- The trace records of a move: a stop at the old core, a resume at the new one (Table 21-4). -/
def traceResume (k src : Nat) (reason : Nat) (addr : W64) (s : State) : State :=
  trace (bhOfReac k) 2 ({ stopRec s k 2 reason addr with coord := (s.re k).core * 4, sender := src }).bytes s

/-! ### migrate (R331) -/

/-- The statuses of migrate, before anything is done. (log 26, DEDUCED) -/
def migrateStatus (s : State) (a b : Nat) : Nat :=
  let r := reacKey (cluOf s.cur) (a % 65536)
  if a / 65536 ≠ 0 then 6
  else if !s.hasRe r then 1
  else if (s.act s.cur).reactor = r then 5
  else if b % 4 ≠ 0 ∨ !unitOk b ∨ s.partOf? (bhOf b) ≠ s.partOf? (bhOf s.cur) ∨ (s.partOf? (bhOf b)).isNone then 2
  else if (s.re r).st == .move then 4
  else if !hasRoom s (s.re r) (coreOf b) then 3
  else 0

/-- Steps 1 and 2: the reactor enters MOVE; what it has formed goes back to its index, and a restartable activation is
aborted and requeued, frozen or not (R371). (log 26, DEDUCED) -/
def startMove (r dst ts : Nat) (d : Nat × Nat) (s : State) : State :=
  let s := match (s.re r).st with
    | .xlate | .pwait | .ready => returnPending r s
    | _ => s
  -- a move that coincides with a stop in force adds no record, and that stop stays (R401)
  let keep := (s.re r).st == .stop
  let s := if keep then s else trace (bhOfReac r) 1 (stopRec s r 1 3 0).bytes s
  let s := s.modRe r fun x => { x with st := .move, kept := keep }
  let s := match (s.re r).runTs with
    | some u => if (s.act u).restartable && (match (s.th u).mode with | .drain _ | .drained _ => false | _ => true)
        then abortAct u none false 0 s else s
    | none => s
  s.emit (.move r dst ts d)

/-- Another agent's activation of the reactor still runs: a trap or page-request activation. -/
def sideBusy (s : State) (r : Nat) : Bool :=
  s.thr.any fun t => t.2.act.any fun a => a.reactor == r && some t.1 != (s.re r).runTs

/-- The issuer of a migrate goes on with the status (R331). -/
def moveStatus (id ts : Nat) (d : Nat × Nat) (st : Nat) (s : State) : State :=
  let s := s.endFl id
  if (s.th ts).mode = .stalled id then s.modTh ts fun t => { t with mode := .run, r := t.r.put ⟨d.1, d.2⟩ st } else s

/-- The end of a move. -/
def moveEnds (id ts : Nat) (d : Nat × Nat) (k src : Nat) (s : State) : State :=
  let s := moveStatus id ts d 0 s
  evalDev (devOfBh (bhOfReac k)) (if (s.re k).st == .stop then s else traceResume k src 3 0 s)

/-- A stopped activation takes its place on a thread set of the new core (steps 4, 5 and 7). Arrivals that it was moved past stand at
the barriers of the cluster that they were made in (R359). -/
def resumeOn (u v k : Nat) (exts : List W128) (frags : List W64) (pins : List Nat) (s : State) : State :=
  let t := s.th u
  let a := s.act u
  let s := dropLate u (releasePins a s)
  let s := s.modTh u fun t =>
    { t with mode := .free, act := none, hist := 0, blk := none, repst := 0, latch := none, bar := none, left := [], away := [] }
  let s := s.modTh v fun q =>
    { t with watch := q.watch, tcause := q.tcause, tval := q.tval, tepc := q.tepc, tstat := q.tstat, gen := q.gen + 1,
             owner := some k, mode := .run, hist := 0, latch := none, bar := none
             left := if cluOf v = cluOf u then t.left else []
             away := if cluOf v = cluOf u then t.away else t.left.map (fun b => (cluOf u, b)) ++ t.away
             act := some { a with reactor := k, extents := exts, frags := frags, pins := pins, code := [] } }
  s.modRe k fun x => { x with st := .run, runTs := some v }

/-- MIGRATION_TAKEOVER: once the reactor's commands have posted, its thread set has stopped at a block exit, and a
forwarding entry is free, the destination takes over (R372 steps 3 to 8). (log 73, DESIGN CHOICE) -/
def execMigrationTakeover (id : Nat) (s : State) : Out :=
  .next (match s.fl? id with
  | some (.move r dst ts d) =>
    let src := (s.re r).core
    if !s.hasRe r then moveStatus id ts d 1 s
    else if engines s r || sideBusy s r then s
    else match freeFwd s (cluOfReac r), (s.re r).runTs with
      | none, _ => s
      | some slot, none =>
        if reactorOut s r then s
        else let (s, k) := relocate r dst slot s
             moveEnds id ts d k (src * 4) s
      | some slot, some u =>
        if (s.th u).mode ≠ .halted ∨ !allAcked s u ∨ reactorOut s r then s
        else if s.flight.any fun e => e.2 == .walk (.side r (some u)) true then s
        else match freeSets s dst with
          | [] => s
          | v :: _ =>
            sideXlate r dst (some u) none (fun exts frags pins _ s =>
              let (s, k) := relocate r dst slot s
              moveEnds id ts d k (src * 4) (resumeOn u v k exts frags pins s)) s
  | _ => s)

/-- The moves whose destination core and reactor pass a test fail: the reactor goes on where it is, a stopped activation from where
it stopped, and the issuer reads status 3. (log 73, DESIGN CHOICE) -/
def dropMoves (sel : Nat → Nat → Bool) (s : State) : State :=
  s.flight.foldl (fun (s : State) (e : Nat × Flight) => match e.2 with
    | .move r dst ts d => if sel dst r then
        let run := (s.re r).runTs
        let s := { s with flight := s.flight.filter fun f => match f.2 with
          | .walk (.side q v) _ => !(q == r && v == run && v.isSome)
          | _ => true }
        let s := match run with
          | some u => s.modTh u fun (t : Thread) => if t.mode = Mode.halted then { t with mode := .run } else t
          | none => s
        let s := s.modRe r fun x => { x with
          kept := false
          st := if run.isSome then .run else if settling s r then .settle else if x.kept then .stop else .hold }
        evalDev (devOfBh (bhOfReac r)) (moveStatus e.1 ts d 3 s)
      else s
    | _ => s) s

/-! ### The migration table (R80 to R82) and side table (R84) -/

/-- Whether a value is well formed for an entry of a bulkhead: STATE, reserved bits, alignment, place, and no other entry
of the pod that names either frame. A write of STATE free is judged by its reserved bits, SIZE and alignment alone; an OLD outside the
bulkhead or in a scratchpad, and a SIZE of 0b11, are refused. (log 91, DESIGN CHOICE) -/
def migValid (s : State) (bh i : Nat) (v : W128) : Bool :=
  let sz := (v.extractLsb' 124 2).toNat
  let page := lvlSize sz
  let clash (f : Nat) : Bool := s.bh.any fun b => b.2.migs.any fun e =>
    !(b.1 == bh && e.1 == i) && migState e.2 != 0 &&
      ((migOld e.2 < f + page && f < migOld e.2 + 64 * migLines e.2) ||
       (migNew e.2 < f + page && f < migNew e.2 + 64 * migLines e.2))
  (v.extractLsb' 126 2).toNat != 3 && v.extractLsb' 96 3 == 0 && v.extractLsb' 36 24 == 0 && sz != 3 &&
    migOld v % page == 0 && migNew v % page == 0 &&
    ((v.extractLsb' 126 2).toNat == 0 ||
      (bhOfPa (migOld v) == bh && !isSp (migOld v) && !isSp (migNew v) && paOk (migOld v) && paOk (migNew v) &&
        paOk (migOld v + page - 1) && paOk (migNew v + page - 1) && !clash (migOld v) && !clash (migNew v)))

/-- MIGRATION_LINE_COPY: the controller copies line PTR and advances PTR (R81). (log 33, DEDUCED) -/
def execMigrationLineCopy (bh i : Nat) (s : State) : Out := .next (migCopyLine s bh i)

/-- Bits of a side-table entry that software may write (Table 04-8). -/
def sideMask : W128 := ~~~(0x7F : W128)

/-- SIDE_TABLE_WRITE: a software write takes its place among the updates of the frame's entry (R84). `frame` is the
frame's global physical address over 65536. (log 31, DEDUCED) -/
def execSideTableWrite (frame : Nat) (v : W128) (s : State) : Out :=
  .next (let pa := frame * 65536
         let b := bhOfPa pa
         if isSp pa || !paOk pa then s
         else s.put (hbmAddr b ((s.bu b).sideBase.toNat % 2 ^ 36 + 16 * (pa % 2 ^ 36 / 65536)))
           (leBytes 16 (v &&& sideMask).toNat))

end Sys2Proof.Machine
end

