-- ==== Sys2Proof/Machine/Ladybird.lean ====
section
/-! DEFINITION. Ladybird.lean: the signatures of a block (R176, R177), their check at its exit (R386, R387), killing a core
and restarting its reactors (R388, R389), and poisoning sectors (R339). -/

namespace Sys2Proof.Machine

/-! ### Signatures (R177) -/

/-- CRC-32C of one more byte, before the final inversion. (log 37, DEDUCED) -/
def crcByte (c : W32) (b : Byte) : W32 :=
  (List.range 8).foldl (fun c _ => if c.getLsbD 0 then (c >>> 1) ^^^ 0x82F63B78 else c >>> 1) (c ^^^ b.setWidth 32)
def crcWord (c w : W32) : W32 := (leBytes 4 w.toNat).foldl crcByte c

/-- The record of a slice operand: start, width in slices, file, and whether it is written. -/
def operandRec (start width file : Nat) (wr : Bool) : W32 :=
  BitVec.ofNat 32 (start + (width - 1) * 512 + file * 8192 + wr.toNat * 32768)

/-- The records of a field that an instruction uses as a slice operand, if it does. -/
def fieldRec (u : Use) (s : Slot) (wr : Bool) : List W32 :=
  let one := [operandRec s.start.toNat s.width s.file.toNat wr]
  match u with
  | .sc | .scL | .scOpt | .addr | .vec | .vecL | .vecScL | .either => one
  | .vecZ => if s.bits = 0 then [] else one
  | .gbyte => if s.file = 0 then one else []
  | _ => []

/-- The records of a base form (R153, R154): windows and pairs in the instruction's file. -/
def baseRecs (op : BitVec 8) (r : OpRow) (hi : BitVec 18) (lit : Bool) : List W32 :=
  let b := (hi.extractLsb' 12 6).toNat
  let a := (hi.extractLsb' 6 6).toNat
  let d := (hi.extractLsb' 0 6).toNat
  let w (i : Nat) (wr : Bool) : W32 := if isVectorOp op then operandRec (4 * i) 4 1 wr else operandRec (8 * i) 8 0 wr
  let p (i : Nat) (wr : Bool) : W32 := operandRec (8 * i) 16 0 wr
  let bs := if lit then [] else [w b false]
  match r.base with
  | .bi => if op = 0x3E then [w d false, w d true] else [w d true]
  | .b3 => [w a false] ++ bs ++ (if r.c = .none then [] else [w d false]) ++ [w d true]
  | .b3Pair => [p a false] ++ bs ++ [p d true]
  | .unary => [w a false, w d true]
  | .target => [p a false]
  | .callx => [p a false, p d true]
  | .icmp => [w a false] ++ bs
  | _ => []

/-- Whether d of an extended form is read: bfi's, vst's, acas's, cp's, vdot's and vbscale's (R205, R275, R284). -/
def readsD (op : BitVec 8) : Bool :=
  op == 0x2E || op == 0x43 || op == 0x45 || op == 0x8A || op == 0xA0 || op == 0xB7
/-- Whether it is written. -/
def writesD (op : BitVec 8) : Bool := op != 0x43 && op != 0xB7

/-- The records of an instruction, sources a, b, c, then d; a d that is also read gives both. A send uses its b where BP = 1
(R241). -/
def rawRecords : Raw → List W32
  | .base op _ hi lit => match opRow op with
    | some r => baseRecs op r hi lit.isSome
    | none => []
  | .ext op _ _ d a b w2 lit => match opRow op with
    | some r =>
      let dr := if readsD op then fieldRec r.d d false else []
      let dw := if writesD op then fieldRec r.d d true else []
      fieldRec r.a a false ++ (if lit.isSome || sendUnused op d then [] else fieldRec r.b b false) ++
        (if isMemOp op || isMatOp op then [] else fieldRec r.c (Slot.ofBits (w2.extractLsb' 0 16)) false) ++ dr ++ dw
    | none => []

def rawOp : Raw → BitVec 8
  | .base op .. => op
  | .ext op .. => op

/-- br, brx, call, callx, ret and done end a block (R176). -/
def rawEnds (r : Raw) : Bool := rawOp r != 0 && (rawOp r).toNat ≤ 7 && rawOp r != 6

/-! ### Poison (R339) -/

/-- The sectors that a piece touches, as pieces of their own. -/
def sectorsOf (p : Piece) : List Piece :=
  (List.range (if p.n = 0 then 0 else (p.pa + p.n - 1) / 64 + 1 - p.pa / 64)).map fun i =>
    { p with pa := (p.pa / 64 + i) * 64, n := 64, va := if i = 0 then p.va else p.va + ((p.pa / 64 + i) * 64 - p.pa) }

/-- Poisons the sectors of a piece: each is judged at its target, and succeeds or fails, alone (R339). The failures come back. -/
def poisonPiece (g : Agent) (p : Piece) (s : State) : State × List (Piece × Result) :=
  (sectorsOf p).foldl (fun a q => match reach a.1 g q .w with
    | .ok => match poisonLine g q.pa (remoteAdd g q a.1) with
      | (s, .ok) => (s, a.2)
      | (s, _) => (s, a.2 ++ [(q, .bounceFull q.va)])
    | e => (a.1, a.2 ++ [(q, e)])) (s, [])

/-! ### Killing a core (R388) -/

/-- The physical pieces of a generic range that its tables, or window 0xE's arithmetic, give. -/
def physPieces (u base len : Nat) (s : State) : State × List Piece :=
  (List.range (len / 65536 + 2)).foldl (fun a i =>
    let va := if i = 0 then base else (base / 65536 + i) * 65536
    let stop := min (base + len) ((base / 65536 + i + 1) * 65536)
    if stop ≤ va then a
    else match place u va 1 with
      | some (.far core off) => (a.1, a.2 ++ [{ va := va, pa := spAddr core off, n := stop - va }])
      | some .paged =>
        let g := a.1.agent u 0
        let w := walkTables a.1 g va
        let s := walkReads a.1 g.bh g va
        (match w with
         | .leaf e lvl _ => (s, a.2 ++ [{ va := va, pa := leafPa e lvl va, n := stop - va, lvl := lvl }])
         | _ => (s, a.2))
      | _ => a) (s, [])

/-- What an activation past its commit point may have written: its range list, or, once that overflowed, its W extents and
its reactor's regions (R384). -/
def postRanges (u : Nat) (s : State) : State × List Piece :=
  let a := s.act u
  if a.rangeOvf then
    let (s, ps) := (a.extents.filter fun e => e.getLsbD 19 && e.getLsbD 23).foldl (fun (o : State × List Piece) e =>
      let (s, ps) := physPieces u (extBase e) (extLast e + 1 - extBase e) o.1
      (s, o.2 ++ ps)) (s, [])
    (s, ps ++ (s.re a.reactor).regions.map fun (g : Nat × Nat × Nat) =>
      { va := 2 ^ 60 + g.2.1, pa := spAddr (s.re a.reactor).core g.2.1, n := g.2.2 })
  else (s, a.ranges.map fun r => { va := r.1, pa := r.1, n := 64 * r.2 })

/-- Poisons what an activation wrote past its commit point (R388 step 4); `keep` leaves out its own bulkhead's
scratchpads (R394). -/
def poisonRanges (u : Nat) (keep : Bool) (s : State) : State :=
  if (s.act u).restartable then s
  else
    let (s, ps) := postRanges u s
    ps.foldl (fun s p => if keep && isSp p.pa && bhOfPa p.pa = bhOf u then s else (poisonPiece (s.agent u 0) p s).1) s

/-- Drops the stores and the Weevil operations of a thread set that pass a test: an activation that ends after its commit point
leaves what it had not written to the poison of its range (R388 step 4). (log 99, DESIGN CHOICE) -/
def dropStores (u : Nat) (all : Bool) (s : State) : State :=
  { s with flight := s.flight.filter fun e => match e.2 with
    | .store q => !(q.ts == u && (all || !q.performed))
    | .weevil q => !(q.ts == u && (all || q.reply.isNone))
    | _ => true }

/-- Every engine command of a thread set stops (R293, R388 step 1). -/
def dropEngines (u : Nat) (s : State) : State :=
  { s with flight := s.flight.filter fun e => match e.2 with
    | .engine ts .. => ts != u
    | _ => true }

/-- Steps 3 to 5 for one thread set of a killed core; the trap entry of a trap that still waits is placed again. (log 99, DESIGN CHOICE) -/
def killThread (u : Nat) (s : State) : State :=
  match (s.th u).act with
  | none => s
  | some a =>
    let s := if a.restartable then s else poisonRanges u false (dropStores u false s)
    match a.kind with
    | .trap =>
      let s := endRun u 2 (dropWork u true (dropTrap u s))
      if (s.th a.serves).mode = .frozen then requeueTrap a.serves a.serveOrder true s else s
    | _ => if a.restartable then abortAct u none false 0 s else cancelThread u (dropWork u true s)

/-- CORE_KILL: steps 1 to 5 of R388; the restart of the reactors follows as CORE_RESTART. (log 73, DESIGN CHOICE) -/
def killCore (core : Nat) (s : State) : State :=
  let s := dropMoves (fun c _ => c == core) (s.modCo core fun k => { k with isSealed := true, killed := true })
  let s := (List.range 4).foldl (fun s t => dropEngines (core * 4 + t) s) s
  let s := (List.range 4).foldl (fun s t => killThread (core * 4 + t) s) s
  let s := (s.reac.filter fun e => e.2.core == core).foldl (fun s e =>
    match (s.re e.1).st with
    | .xlate | .pwait | .ready => returnPending e.1 s
    | .settle => s.modRe e.1 fun x => { x with st := .hold }
    | _ => s) s
  evalDev (devOfBh (bhOfCore core)) s

/-- Where a killed core's reactor goes: the first core after it, around the cluster, that may take it (R389). -/
def restartCore (s : State) (x : Reactor) (core : Nat) : Option Nat :=
  ((List.range 255).map fun i => core / 256 * 256 + (core + i + 1) % 256).find? fun c =>
    !s.supervisor c && hasRoom s x c

/-- What a killed core's reactors still wait for. -/
def toRestart (s : State) (core : Nat) : List (Nat × Reactor) :=
  s.reac.filter fun e => e.2.core == core && !e.2.stranded && e.2.st != .move

/-- Step 7 of R388, once the restart is over: the record of the kill. -/
def noteKill (core : Nat) (s : State) : State :=
  if !(s.co core).killNoted && (toRestart s core).isEmpty then
    logTo (bhOfCore core) { peer := BitVec.ofNat 32 (core * 4), cause := 19 } (s.modCo core fun k => { k with killNoted := true })
  else s

/-- CORE_RESTART: the reactors of a killed core go to other cores in ascending id; one without room stays held (R389). The kill is
recorded after them (R388). -/
def execCoreRestart (core : Nat) (s : State) : Out :=
  .next (if !(s.co core).killed then s
  else evalDev (devOfBh (bhOfCore core)) (noteKill core ((toRestart s core).foldl (fun s e =>
    match restartCore s (s.re e.1) core, freeFwd s (cluOfReac e.1) with
    | none, _ => s.modRe e.1 fun x => { x with stranded := true }
    | some _, none => s
    | some dst, some slot => (relocate e.1 dst slot s).1) s)))

/-! ### The checker (R386, R387) -/

/-- A signature entry of the partition whose block starts at an address. (log 32, DESIGN CHOICE) (log 59, DEDUCED) -/
def sigAt (s : State) (bh : Nat) (a : Nat) : Option Sig := (s.pt (s.partOf bh)).sigs.find? fun g => g.start == a

/-- Control reaches an instruction: a block with an entry begins to be formed at its first word, but in a pass of a repetition
after the first (R177); its entry is loaded.
(log 32, DESIGN CHOICE) -/
def enterBlock (u : Nat) (s : State) : State :=
  let t := s.th u
  if (s.act u).sigMode = 0 ∨ t.blk.isSome ∨ (t.repAct ∧ t.repJ ≠ 0) then s
  else match sigAt s (bhOf u) t.pc.toNat with
    | none => s
    | some g => (s.modTh u fun t => { t with blk := some { start := g.start } }).modPt (s.partOf (bhOf u)) fun p =>
        { p with sigs := p.sigs.map fun (e : Sig) => if e.start = g.start then { e with loaded := true } else e }

/-- An instruction retires in the running block; passes after the first of a repetition are not counted again. -/
def Block.note (b : Block) (ws : List W32) (r : Raw) : Block :=
  { b with cf := ws.foldl crcWord b.cf, dd := (rawRecords r).foldl crcWord b.dd }

/-- Whether a formed block differs from its entry under a mode (R386). -/
def Block.differs (b : Block) (g : Sig) (mode : BitVec 2) : Bool :=
  ~~~b.cf != g.cf || (mode == 2 && ~~~b.dd != g.dd)

/-- SIGNATURE_MISMATCH: the thread set stops, a record is written, and the activation is aborted or its core killed
(R364, R387). -/
def sigMismatch (u start : Nat) (s : State) : State :=
  let a := s.act u
  let s := s.modTh u fun t =>
    { t with tcause := 0x11, tval := BitVec.ofNat 64 start, tepc := t.pc, tstat := t.statWord }
  let s := logTo (bhOf u) { addr := BitVec.ofNat 64 start, tagt := a.q.tagt, tagm := a.q.tagm,
                            peer := BitVec.ofNat 32 u, cause := 21 } s
  if a.restartable ∧ (a.sigRuns = 0 ∨ (a.sigRuns = 1 ∧ a.sigBlock ≠ BitVec.ofNat 64 start)) then
    evalDev (devOf u) (abortAct u none true (BitVec.ofNat 64 start) s)
  else killCore (coreOf u) s

/-- After an instruction has retired and control has come to `pc`: at the block's exit it is checked, unless its entry has been
discarded meanwhile (R338). (log 32, DESIGN CHOICE) -/
def checkBlock (u : Nat) (b : Block) (r : Raw) (pc : Nat) (s : State) : State :=
  match sigAt s (bhOf u) b.start with
  | none => s.modTh u fun t => { t with blk := none }
  | some g =>
    if rawEnds r ∨ pc < g.start ∨ g.stop ≤ pc then
      if g.loaded && b.differs g (s.act u).sigMode then sigMismatch u g.start s
      else s.modTh u fun t => { t with blk := none }
    else s.modTh u fun t => { t with blk := some b }

end Sys2Proof.Machine
end

