-- ==== Sys2Proof/Machine/System.lean ====
section
/-! DEFINITION. System.lean: the system instructions 0xD0 to 0xDD (R321 to R340), the writes of system registers and their
waits (R45 to R47, R75 to R79, R324 to R327). -/

namespace Sys2Proof.Machine

/-! ### Form (R321, R323, R340) -/

/-- A system instruction waits for older loads (R185). -/
def sysI (g : Guard) (x : XA) (body : State → State) (s : State) : Out :=
  scalarI g (extLen x.lit) (fun s => if s.loading s.cur then s else body s) s
/-- Operand a. -/
def sysA (x : XA) (s : State) : Nat := readSlices s.me.r.scalar (rngOf x.a)
/-- Word 0 of the instruction at the program counter. -/
def word0 (s : State) : W32 := (s.codeWord s.cur s.me.pc).getD 0
/-- A privileged instruction: in an unprivileged activation the privilege trap, else it commits first, then acts. -/
def privI (g : Guard) (x : XA) (body : State → State) (s : State) : Out :=
  sysI g x (fun s => if (s.act s.cur).priv then committed body s else trap 0x04 ((word0 s).setWidth 64) s) s
/-- Writes d and goes on. -/
def gives (x : XA) (v : Nat) (s : State) : State := advance (extLen x.lit) (putMe x.d v s)

/-! ### System registers (Table 17-2) -/

def CtrCfg.word (c : CtrCfg) : W64 := BitVec.ofNat 64 (c.oevt.toNat * 2 ^ 24 + c.tsm.toNat * 256 + c.evt.toNat)

/-- SSTAT (Table 17-3). -/
def sstat (s : State) : W64 :=
  let t := s.me
  BitVec.ofNat 64 ((if t.ve then 16 * t.vec.toNat + 2 else 0) + (s.act s.cur).priv.toNat)

/-- Half h of a 128-bit table entry. -/
def half (v : W128) (h : Nat) : W64 := v.extractLsb' (64 * (h % 2)) 64

/-- rdsys of register n, in the issuer's view (R324). -/
def readSys (s : State) (n : Nat) : W64 :=
  let t := s.me
  let a := s.act s.cur
  let k := s.co (coreOf s.cur)
  if n = 0 then t.r.fpctl
  else if n = 1 then t.repst.setWidth 64
  else if n = 2 then sstat s
  else if n = 3 then BitVec.ofNat 64 s.cur
  else if n = 4 then t.arp
  else if 0x10 ≤ n ∧ n ≤ 0x1F then s.bfmt (coreOf s.cur) (n - 0x10)
  else if 0x30 ≤ n ∧ n ≤ 0x33 then (Map.get {} k.cfg (n - 0x30)).word
  else if !a.priv then 0
  else if n = 8 then t.tcause
  else if n = 9 then t.tval
  else if n = 10 then t.tepc
  else if n = 11 then t.tstat
  else if 0x100 ≤ n ∧ n ≤ 0x113 then half (a.extents.getD ((n - 0x100) / 2) 0) n
  else if 0x200 ≤ n ∧ n ≤ 0x21F then
    half (((k.late.find? fun e => e.1 == (n - 0x200) / 2).map (·.2)).getD 0) n
  else if 0x400 ≤ n ∧ n ≤ 0x5FF then a.frags.getD (n - 0x400) 0
  else 0

/-- A register number that Table 17-2 assigns. -/
def sysAssigned (n : Nat) : Bool :=
  n ≤ 4 || (8 ≤ n && n ≤ 0xB) || (0x10 ≤ n && n ≤ 0x22) || (0x30 ≤ n && n ≤ 0x33) || (0x100 ≤ n && n ≤ 0x113) ||
    (0x200 ≤ n && n ≤ 0x21F) || (0x400 ≤ n && n ≤ 0x5FF)

/-! ### BFMTn (R46, R47, R326, R327) -/

/-- Whether the whole bank lies within the named regions of a reactor (R46); each pass moves past one region. -/
def bankOwned (gs : List (Nat × Nat × Nat)) (stop : Nat) : Nat → Nat → Bool
  | 0, o => stop ≤ o
  | f + 1, o =>
    if stop ≤ o then true
    else match gs.find? fun g => g.2.1 ≤ o && o < g.2.1 + g.2.2 with
      | some g => bankOwned gs stop f (g.2.1 + g.2.2)
      | none => false

/-- A BFMT value that is not ill-formed (R326). -/
def bfmtOk (v : W64) : Bool :=
  layoutOk (v.extractLsb' 0 8).toNat && v.extractLsb' 8 2 != 3 && v.extractLsb' 11 23 == 0 && v.extractLsb' 48 3 == 0 &&
    (v.extractLsb' 51 13).toNat * 64 < 0x60000 && (v.extractLsb' 35 13).toNat * 64 < 0x60000

/-- Whether the issuer may write BFMTn. -/
def bfmtMine (s : State) (n : Nat) : Bool :=
  let a := s.act s.cur
  n < 12 && (a.priv || bankOwned (s.re a.reactor).regions (0x8000 * (n + 1)) 8 (0x8000 * n))

/-- The write of a BFMT: ignored with a view error, or taken; a change of LAYOUT, SWZ or TM stalls the thread set until
the bank has been rewritten. -/
def writeBfmt (n : Nat) (v : W64) (s : State) : State :=
  if !bfmtMine s n then viewError 1 s
  else if !bfmtOk v then viewError 2 s
  else
    let c := coreOf s.cur
    if (s.bfmt c n).extractLsb' 0 11 = v.extractLsb' 0 11 then setBfmt c n v s
    else
      let id := s.nextId
      let s := s.modCo c fun k => { k with rewriting := k.rewriting ++ [(n, v, s.cur, id)] }
      { s.modMe fun t => { t with mode := .stalled id } with nextId := id + 1 }

/-- BANK_REWRITE: once earlier commands have left the bank, its controller rewrites it and the write ends (R47). -/
def execBankRewrite (core bank : Nat) (s : State) : Out :=
  .next (match (s.co core).rewriting.find? fun w => w.1 == bank with
  | none => s
  | some w =>
    let ⟨b, v, u, id⟩ := w
    if touching s core b id then s
    else
      let s := setBfmt core b v (s.modCo core fun k => { k with rewriting := k.rewriting.erase w })
      if (s.th u).mode = .stalled id then s.modTh u fun t => { t with mode := .run } else s)

/-! ### CTRCFGn (R333, R405) -/

def evtOk (e : Nat) : Bool := e ≤ 0xB || (0x10 ≤ e && e ≤ 0x17)

def writeCfg (n : Nat) (v : W64) (s : State) : State :=
  let evt := v.extractLsb' 0 8
  let tsm := v.extractLsb' 8 4
  if !evtOk evt.toNat || (tsm == 0 && evt != 0) || v.extractLsb' 32 32 != 0 || v.extractLsb' 12 12 != 0 then viewError 2 s
  else s.modCo (coreOf s.cur) fun k =>
    { k with cfg := Map.set k.cfg n { Map.get {} k.cfg n with tsm := tsm, evt := evt } }

/-! ### The pager's registers (R78) -/

/-- PGANS: the answer is on its way; the thread set stalls until it has been accepted or ignored. -/
def writePgans (v : W64) (s : State) : State :=
  if !(s.act s.cur).priv then viewError 1 s
  else if v.extractLsb' 36 28 ≠ 0 then viewError 2 s
  else (s.modMe fun t => { t with mode := .stalled s.nextId }).emit
    (.answer (v.extractLsb' 0 27).toNat (v.extractLsb' 27 8).toNat (v.getLsbD 35) s.cur)

/-- Translates the formed activation of a reactor anew: a walk from the root, and new pins. -/
def rewalk (r : Nat) (s : State) : State :=
  match (s.re r).pend with
  | none => s
  | some p =>
    if (s.re r).st = .xlate ∨ (s.re r).st = .ready then
      ((dropXlate r p.act s).modRe r fun x => { x with
        st := .xlate
        pend := some { p with act := { p.act with extents := [], frags := [], pins := [] }, lateEnt := none, pinsOut := 0 }
        }).emit (.walk (.dispatch r) false)
    else s

/-- PGINV: every sequencer of the partition drops the entries named, and translates anew what it has formed and not dispatched
(R63). (log 35, DESIGN CHOICE) -/
def writePginv (v : W64) (s : State) : State :=
  if !(s.act s.cur).priv then viewError 1 s
  else if v.extractLsb' 1 15 ≠ 0 then viewError 2 s
  else
    let p := s.partOf? (bhOf s.cur)
    let va := v.toNat / 65536 * 65536
    let keep (x : Nat × Nat × W128 × Nat) : Bool := !v.getLsbD 0 && va / lvlSize x.2.1 != x.1
    let one (e : Nat × Cluster) : Nat × Cluster :=
      if s.partOf? (bhOfClu e.1) = p then (e.1, { e.2 with tlb := e.2.tlb.filter keep }) else e
    (s.reac.filter fun e => s.partOf? (bhOfReac e.1) == p).foldl (fun s e => rewalk e.1 s) { s with clu := s.clu.map one }

/-! ### FRMCTL (R75, R76, R79) -/

/-- The page that a FRMCTL value names: its address and bytes, where the value is well formed, its bulkhead is not dead to the
issuer's, the route carries the request (R392), and the gate admits it. (log 72, DEDUCED) -/
def frmPage (s : State) (v : W64) : Option (Nat × Nat) :=
  let pa := (v.extractLsb' 16 36).toNat * 65536
  let n := lvlSize (v.extractLsb' 2 2).toNat
  let b := bhOfPa pa
  if (s.act s.cur).priv && v.extractLsb' 52 12 == 0 && v.extractLsb' 2 2 != 3 && pa % n == 0 && !isSp pa && paOk pa &&
      paOk (pa + n - 1) && s.partOf? b == some (s.partOf (bhOf s.cur)) &&
      transitOk s (s.agent s.cur 0) pa && !(b != bhOf s.cur && peerDead s (bhOf s.cur) b)
  then some (pa, n) else none

/-- Keys of the 64 KiB frames of a page within its bulkhead. -/
def frmKeys (pa n : Nat) : List Nat := (List.range (n / 65536)).map (frameOf pa + ·)

/-- Whether a frame of the page is pinned, or a migration entry names it. -/
def frmBusy (s : State) (pa n : Nat) : Bool :=
  let lo := frameOf pa
  ((s.bu (bhOfPa pa)).pinCount.any fun e => lo ≤ e.1 && e.1 < lo + n / 65536) ||
    s.bh.any fun b => b.2.migs.any fun e => migState e.2 != 0 &&
      ((migOld e.2 < pa + n && pa < migOld e.2 + 64 * migLines e.2) ||
       (migNew e.2 < pa + n && pa < migNew e.2 + 64 * migLines e.2))

/-- Sets or clears the mark of every frame of a page. -/
def frmMark (pa n : Nat) (m : Option FrameSt) (s : State) : State :=
  let lo := frameOf pa
  s.modBu (bhOfPa pa) fun b =>
    let rest := b.frames.filter fun (e : Nat × FrameSt) => !(lo ≤ e.1 && e.1 < lo + n / 65536)
    { b with frames := match m with
      | none => rest
      | some st => (frmKeys pa n).foldl (fun f k => Map.set f k st) rest }

/-- Whether every frame of a page has a mark that passes a test. -/
def frmAll (s : State) (pa n : Nat) (ok : Option FrameSt → Bool) : Bool :=
  (frmKeys pa n).all fun k => ok (Map.get? (s.bu (bhOfPa pa)).frames k)

/-- Writes every sector of a page as zero; none is recorded as elided. (log 61, DESIGN CHOICE) -/
def zeroPage (pa n : Nat) (s : State) : State :=
  { s with mem := s.mem.filter fun c => !(pa ≤ c.1 && c.1 < pa + n)
           poison := s.poison.filter fun k => !(pa ≤ 64 * k && 64 * k < pa + n)
           flips := s.flips.filter fun e => !(pa ≤ 64 * e.1 && 64 * e.1 < pa + n)
           elided := s.elided.filter fun k => !(pa ≤ 64 * k && 64 * k < pa + n)
           lostMeta := s.lostMeta.filter fun k => !(pa ≤ 64 * k && 64 * k < pa + n) }

/-- Attributes: new records, the sectors re-encoded or zeroed. -/
def frmAttributes (v : W64) (s : State) : State :=
  match frmPage s v with
  | none => viewError 2 s
  | some (pa, n) =>
    let lay := v.extractLsb' 4 8
    if v.getLsbD 15 || !layoutOk lay.toNat || frmBusy s pa n then viewError 2 s
    else
      let s := if v.getLsbD 14 then zeroPage pa n s
        else (frmKeys pa n).foldl (fun s k =>
          let a := hbmAddr (bhOfPa pa) (65536 * k)
          let p := s.protection a
          recodeRange a 65536 p.1 p.2 s) s
      let b := bhOfPa pa
      (frmKeys pa n).foldl (fun s k => s.put (hbmAddr b ((s.bu b).attrBase.toNat % 2 ^ 36 + 2 * k))
        (leBytes 2 (lay.toNat + (v.extractLsb' 12 2).toNat * 256))) s

/-- Withdraw: a resident page that nothing pins or moves. -/
def frmWithdraw (v : W64) (s : State) : State :=
  match frmPage s v with
  | none => viewError 2 s
  | some (pa, n) =>
    if v.extractLsb' 4 12 ≠ 0 ∨ frmBusy s pa n ∨ !frmAll s pa n (· == none) then viewError 2 s
    else frmMark pa n (some .withdrawn) s

/-- Fill: a withdrawn page. -/
def frmFill (v : W64) (s : State) : State :=
  match frmPage s v with
  | none => viewError 2 s
  | some (pa, n) =>
    if v.extractLsb' 4 12 ≠ 0 ∨ !frmAll s pa n (· == some .withdrawn) then viewError 2 s
    else frmMark pa n (some .filling) s

/-- Applies one bounce-buffer line: its poison, or its masked bytes, in runs of one access. Its watch hits came when the
controller took it. -/
def applyBounce (l : Bounce) (s : State) : State :=
  if l.poison then { setPoison (l.pa / 64) true s with elided := s.elided.filter (· != l.pa / 64) }
  else match l.bytes with
  | [] => s
  | (o, _) :: _ => putLine (l.pa + o) (l.bytes.map (·.2)) s

/-- Restore: the page's bounce lines in acceptance order, then resident (R76 steps 2 and 3). -/
def frmRestore (v : W64) (s : State) : State :=
  match frmPage s v with
  | none => viewError 2 s
  | some (pa, n) =>
    if v.extractLsb' 4 12 ≠ 0 ∨ !frmAll s pa n (·.isSome) then viewError 2 s
    else
      let b := bhOfPa pa
      let mine (l : Bounce) : Bool := pa ≤ l.pa && l.pa < pa + n
      let ls := (s.bu b).bounce.filter mine
      releaseHostReads (frmMark pa n none (ls.foldl (fun s l => applyBounce l s)
        (s.modBu b fun x => { x with bounce := x.bounce.filter fun l => !mine l })))

/-- A write to FRMCTL, by its operation. (log 72, DEDUCED) -/
def writeFrmctl (v : W64) (s : State) : State :=
  if !(s.act s.cur).priv then viewError 1 s
  else match (v.extractLsb' 0 2).toNat with
    | 0 => frmAttributes v s
    | 1 => frmWithdraw v s
    | 2 => frmRestore v s
    | _ => frmFill v s

/-! ### wrsys -/

/-- The write of system register n (R324, R188, R325, R326, R333). -/
def writeSys (n : Nat) (v : W64) (s : State) : State :=
  if n = 0 then
    if v &&& ~~~0x31F ≠ 0 then viewError 2 s else s.modMe fun t => { t with r := { t.r with fpctl := v } }
  else if n = 2 then
    if v.getLsbD 1 then s.modMe fun t => { t with ve := false, vec := 0 } else s
  else if 0x10 ≤ n ∧ n ≤ 0x1F then writeBfmt (n - 0x10) v s
  else if n = 0x20 then writePgans v s
  else if n = 0x21 then writePginv v s
  else if n = 0x22 then writeFrmctl v s
  else if 0x30 ≤ n ∧ n ≤ 0x33 then writeCfg (n - 0x30) v s
  else viewError (if sysAssigned n then 1 else 3) s

/-- A write that acts beyond the activation (R340). (log 25, DEDUCED) -/
def sysActs (s : State) (n : Nat) (v : W64) : Bool :=
  (0x10 ≤ n && n ≤ 0x1F && bfmtMine s (n - 0x10) && bfmtOk v) || (0x20 ≤ n && n ≤ 0x22 && (s.act s.cur).priv)

def execRdsys (g : Guard) (x : XA) (s : State) : Out :=
  sysI g x (fun s => gives x (readSys s (readZ x.b x.lit s)).toNat s) s

def execWrsys (g : Guard) (x : XA) (s : State) : Out :=
  sysI g x (fun s =>
    let n := readZ x.b x.lit s
    let v := BitVec.ofNat 64 (sysA x s)
    let go (s : State) : State := advance (extLen x.lit) (writeSys n v s)
    if sysActs s n v then committed go s else go s) s

/-- BFMT_WRITE, PGANS, PGINV, FRMCTL_* and SYSREG_WRITE: the writes of a wrsys as steps of their own, for the thread set
that issues. -/
def execBfmtWrite (n : BitVec 4) (v : W64) (s : State) : Out := .next (writeBfmt n.toNat v s)
def execPgans (v : W64) (s : State) : Out := .next (writePgans v s)
def execPginv (v : W64) (s : State) : Out := .next (writePginv v s)
def execFrmctlAttributes (v : W64) (s : State) : Out :=
  .next (if (s.act s.cur).priv then frmAttributes v s else viewError 1 s)
def execFrmctlWithdraw (v : W64) (s : State) : Out :=
  .next (if (s.act s.cur).priv then frmWithdraw v s else viewError 1 s)
def execFrmctlFill (v : W64) (s : State) : Out :=
  .next (if (s.act s.cur).priv then frmFill v s else viewError 1 s)
def execFrmctlRestore (v : W64) (s : State) : Out :=
  .next (if (s.act s.cur).priv then frmRestore v s else viewError 1 s)
def execSysregWrite (n v : W64) (s : State) : Out := .next (writeSys n.toNat v s)

/-! ### freeze, thaw and trap (R328 to R330) -/

/-- The thread set of the issuer's cluster that a freeze or thaw names. -/
def targetOf (s : State) (a : Nat) : Nat := cluOf s.cur * 1024 + a % 256 * 4 + a / 256 % 4

/-- The status of a freeze of a thread set that can be given now: 2 frozen already, 3 no activation, 0 it freezes; `none`
while its older loads and register results (R196), a drain, or an instruction that stalls it are still to end. (log 25, DEDUCED) -/
def freezeStatus (s : State) (t : Nat) : Option Nat :=
  match (s.th t).mode with
  | .free => some 3
  | .frozen => some 2
  | .drain _ | .drained _ | .stalled _ => none
  | .run | .parked _ | .halted => if s.awaits t then none else some 0

/-- Freezes a target for an issuer; a miss that it waits for is withdrawn, since its instruction has not begun. -/
def freezeTarget (u t : Nat) (s : State) : State := freezeAt t 0x10 none (BitVec.ofNat 64 u) (dropWork t false s)

/-- Whether a freeze or thaw of a target, of another thread set, has come before place `id` and is not served yet: the target core serves
them in arrival order (R329). (log 25, DEDUCED) -/
def requestBefore (s : State) (me t id : Nat) : Bool :=
  s.flight.any fun e => e.1 < id && match e.2 with
    | .freeze u q .. => q == t && u != me
    | .turn u q gen pc _ => q == t && u != me && (s.th u).gen == gen && (s.th u).pc == pc && (s.th u).act.isSome
    | _ => false

/-- The place that the issuing thread set has taken among the requests of a target, if it has had to wait. (log 25, DEDUCED) -/
def myTurn (s : State) (t : Nat) : Option Nat :=
  (s.flight.find? fun e => e.2 == .turn s.cur t s.me.gen s.me.pc false || e.2 == .turn s.cur t s.me.gen s.me.pc true).map (·.1)
/-- Whether the page that the issuing thread set's thaw had to read was declined (R329). -/
def turnDeclined (s : State) (t : Nat) : Bool := s.flight.any fun e => e.2 == .turn s.cur t s.me.gen s.me.pc true
def dropTurn (t : Nat) (s : State) : State := match myTurn s t with
  | some id => s.endFl id
  | none => s
/-- Takes a place among the requests of a target, once. (log 25, DEDUCED) -/
def takeTurn (t : Nat) (s : State) : State :=
  if (myTurn s t).isSome then s else s.emit (.turn s.cur t s.me.gen s.me.pc false)
/-- A freeze or thaw waits for those that came before it. -/
def inTurn (t : Nat) (body : State → State) (s : State) : State :=
  if requestBefore s s.cur t ((myTurn s t).getD s.nextId) then takeTurn t s else body s

def execFreeze (g : Guard) (x : XA) (s : State) : Out :=
  privI g x (fun s =>
    let a := sysA x s
    let t := targetOf s a
    if a / 1024 ≠ 0 then gives x 4 s
    else if t = s.cur then gives x 1 s
    else inTurn t (fun s => match freezeStatus s t with
      | some 0 => gives x 0 (freezeTarget s.cur t (dropTurn t s))
      | some st => gives x st (dropTurn t s)
      | none =>
        let s := takeTurn t s
        let id := (myTurn s t).getD 0
        (advance (extLen x.lit) (s.modMe fun th => { th with mode := .stalled id })).setFl id
          (.freeze s.cur t x.d.start.toNat x.d.width)) s) s

/-- A freeze that waits ends as soon as its target allows. -/
def endFreeze (id : Nat) (s : State) : State :=
  match s.fl? id with
  | some (.freeze u t st w) =>
    (match if requestBefore s u t id then none else freezeStatus s t with
     | none => s
     | some c =>
       let s := s.endFl id
       let s := if c = 0 then freezeTarget u t s else s
       if (s.th u).mode = .stalled id then s.modTh u fun th => { th with mode := .run, r := th.r.put ⟨st, w⟩ c } else s)
  | _ => s

/-- Every freeze that waits. (log 25, DEDUCED) -/
def endFreezes (s : State) : State := s.flight.foldl (fun s e => endFreeze e.1 s) s

/-- Whether a freeze that waits for a thread set keeps it from issuing (R328). -/
def freezing (s : State) (t : Nat) : Bool :=
  s.flight.any fun e => match e.2 with
    | .freeze _ q .. => q == t
    | _ => false

/-- A frozen thread set goes on n bytes past its program counter; inside a repetition the instruction skipped counts as run. An
arrival at a barrier that it waits in stands until its episode releases (R359). -/
def skipBy (t n : Nat) (s : State) : State :=
  let s := unfreeze t (s.modTh t fun th =>
    { th with pc := th.pc + BitVec.ofNat 64 n, left := th.bar.toList ++ th.left, bar := none })
  if (s.th t).repAct then repNext t n s else s

/-- Word 0 at TEPC as the target's own fetch reads it (R216): its length, or what stops the fetch. -/
inductive Word0 where
  | bytes (n : Nat)
  | fails
  | absent (va : Nat)
  | later
  /-- a table read is held at a withdrawn frame (R75) -/
  | held
  deriving DecidableEq, Repr

/-- `out` says that a held table read has ended "not resident" (R75). -/
def fetchWord0 (s : State) (t : Nat) (out : Bool) : State × Word0 :=
  let pc := (s.th t).pc
  match s.codeWord t pc with
  | some w => (codeHits t 1 pc s, .bytes (lengthBytes w))
  | none =>
    if !fetchable pc then (s, .fails)
    else
      let va := pc.toNat
      match walkSeq s (cluOf t) (s.act t).priv va with
      | (s, .absent) => (s, .absent va)
      | (s, .held _) => (s, if out then .absent va else .held)
      | (s, .leaf e lvl _) =>
        let near := bhOfPa (leafAddr e) = bhOf t
        if !pteR e || !tenantOk s e then (s, .fails)
        else if !near && reach s { unit := cluOf t * 1024, bh := bhOf t, part := s.partOf (bhOf t), priv := false, path := 4 }
            { va := va, pa := leafAddr e, n := 1 } .r != .ok then (s, .fails)
        else if !isSp (leafAddr e) && pinsAt s (leafAddr e) == 255 then (s, .later)
        else (codeHit t (leafPa e lvl va) s, .bytes (lengthBytes (BitVec.ofNat 32 (s.rawNat (homeOf s (leafPa e lvl va)) 4))))
      | (s, _) => (s, .fails)

def execThaw (g : Guard) (x : XA) (s : State) : Out :=
  privI g x (fun s =>
    let a := sysA x s
    let b := readZ x.b x.lit s
    let t := targetOf s a
    if a / 1024 ≠ 0 then gives x 3 s
    else inTurn t (fun s =>
    if (s.th t).mode ≠ .frozen then gives x 1 (dropTurn t s)
    else if 2 < b then gives x 2 (dropTurn t s)
    else if b = 0 then
      let s := dropTurn t s
      gives x 0 (unfreeze t (trace (bhOf t) 4 (trapRec s t 0).bytes s))
    else if b = 2 then
      let s := dropTurn t s
      gives x 0 (cancelAct t ((trace (bhOf t) 4 (trapRec s t 2).bytes s).modTh t fun th => { th with mode := .run }))
    else if turnDeclined s t then gives x 2 (dropTurn t s)
    else
      let me : WalkFor := .skip s.cur
      let mine := (s.flight.find? fun e => e.2 == .walk me false).map (·.1)
      let put (s : State) : State := match mine with
        | some id => clearOut id (s.endFl id)
        | none => s
      let served (s : State) : State := dropTurn t (put s)
      match fetchWord0 s t ((mine.map (readOut s)).getD false) with
      | (s, .bytes n) => gives x 0 (skipBy t n (trace (bhOf t) 4 (trapRec s t 1).bytes (served s)))
      | (s, .fails) => gives x 2 (served s)
      | (_, .later) => takeTurn t s
      | (_, .held) =>
        let s := takeTurn t s
        if mine.isSome then s else s.emit (.walk me false)
      | (s, .absent va) =>
        let s := takeTurn t (put s)
        (match askPage s.nextId (s.act t).reactor (coreOf t) (s.act t).q.tag va 1 false true (s.emit (.walk me true)) with
         | none => gives x 2 (dropTurn t s)
         | some s' => s'.modMe fun th => { th with mode := .stalled s.nextId })) s) s

/-- trap (R330). -/
def execTrap (g : Guard) (x : XA) (s : State) : Out :=
  scalarI g (extLen x.lit) (fun s => trap 0x0F (BitVec.ofNat 64 (readZ x.b x.lit s)) s) s

/-! ### migrate and seal (R331, R332) -/

def execMigrate (g : Guard) (x : XA) (s : State) : Out :=
  privI g x (fun s =>
    let a := sysA x s
    let b := readZ x.b x.lit s
    match migrateStatus s a b with
    | 0 =>
      let s := startMove (reacKey (cluOf s.cur) (a % 65536)) (coreOf b) s.cur (x.d.start.toNat, x.d.width)
        (advance (extLen x.lit) s)
      s.modMe fun t => { t with mode := .stalled (s.nextId - 1) }
    | st => gives x st s) s

/-- seal (R332). (log 27, DEDUCED) -/
def execSeal (g : Guard) (x : XA) (s : State) : Out :=
  privI g x (fun s =>
    let a := sysA x s
    let b := readZ x.b x.lit s
    if 1 < b ∨ a % 4 ≠ 0 ∨ 2 ^ 27 ≤ a then gives x 4 s
    else if !unitOk a || s.partOf? (bhOf a) != s.partOf? (bhOf s.cur) || (s.partOf? (bhOf a)).isNone then gives x 1 s
    else if coreOf a = coreOf s.cur then gives x 2 s
    else if b = 0 then
      gives x 0 (evalDev (devOf a) (s.modCo (coreOf a) fun k => { k with isSealed := true }))
    else if s.reac.any fun e => e.2.core == coreOf a then gives x 3 s
    else gives x 0 (s.modCo (coreOf a) fun k => { k with isSealed := false })) s

/-! ### Counters (R333, R334) -/

/-- A counter number that Table 17-5 assigns. -/
def ctrOk (n : Nat) : Bool := n ≤ 4 || (8 ≤ n && n ≤ 15)

/-- What rdctr reads; the retirement of the rdctr itself may overflow the counter in that cycle (Table 17-7). -/
def readCtr (s : State) (n : Nat) : W64 :=
  let k := s.co (coreOf s.cur)
  let c := Map.get {} k.ctrs n
  if n = 4 then c.count
  else
    let g := Map.get {} k.cfg n
    let own := n < 4 && g.evt == 1 && g.tsm.getLsbD (tsOf s.cur) && c.count.toNat % 2 ^ 48 == 2 ^ 48 - 1
    BitVec.ofNat 64 (c.count.toNat % 2 ^ 48 + (c.ovf || own).toNat * 2 ^ 63)

def execRdctr (g : Guard) (x : XA) (s : State) : Out :=
  sysI g x (fun s =>
    let n := readZ x.b x.lit s
    if ctrOk n then gives x (readCtr s n).toNat s else gives x 0 (viewError 3 s)) s

def execWrctr (g : Guard) (x : XA) (s : State) : Out :=
  sysI g x (fun s =>
    let n := readZ x.b x.lit s
    let v := sysA x s % 2 ^ 64
    let put (c : Ctr) (s : State) : State := s.modCo (coreOf s.cur) fun k => { k with ctrs := Map.set k.ctrs n c }
    advance (extLen x.lit)
      (if !ctrOk n then viewError 3 s
       else if n = 4 then
         if (s.act s.cur).priv then put { count := BitVec.ofNat 64 v } s else viewError 1 s
       else put { count := BitVec.ofNat 64 (v % 2 ^ 48), ovf := v.testBit 63 } s)) s

def execCtrcfg (g : Guard) (x : XA) (s : State) : Out :=
  sysI g x (fun s =>
    let n := readZ x.b x.lit s
    advance (extLen x.lit) (if 3 < n then viewError 3 s else writeCfg n (BitVec.ofNat 64 (sysA x s)) s)) s

/-! ### Watchpoints (R335 to R337) -/

/-- The physical range of n bytes at a virtual address in the issuer's own bulkhead, when the tables give one. (log 28, DEDUCED) -/
def watchPa (s : State) (va n : Nat) : Option Nat :=
  let at_ (i : Nat) : Option Nat := match walkTables s (s.agent s.cur 0) (va + 65536 * i) with
    | .leaf e lvl _ =>
      let pa := leafPa e lvl (va + 65536 * i)
      if tenantOk s e && !isSp pa && bhOfPa pa == bhOf s.cur then some pa else none
    | _ => none
  match at_ 0 with
  | none => none
  | some pa => if (List.range ((n + 65535) / 65536)).all fun i => at_ i == some (pa + 65536 * i) then some pa else none

/-- The lowest slot that nothing holds. -/
def freeSlotOf {α : Type} (l : List (Nat × α)) (n : Nat) : Option Nat :=
  (List.range n).find? fun i => l.all fun e => e.1 != i

/-- What those walks leave behind (R83, R337). -/
def watchReads (s : State) (va n : Nat) : State :=
  (List.range (if (watchPa s va 1).isSome then (n + 65535) / 65536 else 1)).foldl (fun s i =>
    walkReads s (bhOf s.cur) (s.agent s.cur 0) (va + 65536 * i)) s

def execWpset (g : Guard) (x : XA) (s : State) : Out :=
  privI g x (fun s =>
    let a := sysA x s
    let b := readZ x.b x.lit s
    let mside := b.testBit 10
    let kinds := fld b 12 11
    let l := fld b 17 13
    if b / 2 ^ 34 ≠ 0 ∨ kinds = 0 ∨ (if mside then 30 else 16) < l ∨ a % 2 ^ l ≠ 0 then gives x (3 * 256) s
    else if mside then
      let pa := watchPa s a (2 ^ l)
      let s := watchReads s a (2 ^ l)
      match pa, freeSlotOf (s.bu (bhOf s.cur)).mwatch 64 with
      | none, _ => gives x (2 * 256) s
      | some _, none => gives x (1 * 256) s
      | some pa, some i =>
        gives x i (s.modBu (bhOf s.cur) fun k => { k with mwatch := k.mwatch ++
          [(i, { pa := pa, len := 2 ^ l, wr := kinds.testBit 0, rd := kinds.testBit 1,
                 owner := reacKey (cluOf s.cur) (fld b 33 18) })] })
    else
      let t := cluOf s.cur * 1024 + fld b 7 0 * 4 + fld b 9 8
      match freeSlotOf (s.th t).watch 4 with
      | none => gives x (1 * 256) s
      | some i => gives x i (s.modTh t fun th => { th with watch := th.watch ++
          [(i, { addr := a, len := 2 ^ l, wr := kinds.testBit 0, rd := kinds.testBit 1 })] })) s

def execWpclr (g : Guard) (x : XA) (s : State) : Out :=
  privI g x (fun s =>
    let b := readZ x.b x.lit s
    let i := fld b 7 0
    if b / 2 ^ 19 ≠ 0 then gives x (i + 3 * 256) s
    else if b.testBit 18 then
      if (s.bu (bhOf s.cur)).mwatch.any fun e => e.1 == i then
        gives x i (s.modBu (bhOf s.cur) fun k => { k with mwatch := k.mwatch.filter fun (e : Nat × MWatch) => e.1 != i })
      else gives x (i + 1 * 256) s
    else
      let t := cluOf s.cur * 1024 + fld b 17 10 * 4 + fld b 9 8
      if (s.th t).watch.any fun e => e.1 == i then
        gives x i (s.modTh t fun th => { th with watch := th.watch.filter fun (e : Nat × Watch) => e.1 != i })
      else gives x (i + 1 * 256) s) s

/-! ### sigctl and pwrite (R338, R339) -/

def execSigctl (g : Guard) (x : XA) (s : State) : Out :=
  sysI g x (fun s =>
    let b := readZ x.b x.lit s
    let r := (s.act s.cur).reactor
    if 7 < b ∨ b % 4 = 3 then gives x 0xF s
    else
      let old := (s.re r).sigMode.toNat
      let s := s.modRe r fun y => { y with sigMode := BitVec.ofNat 2 b }
      let s := if b.testBit 2 then s.modPt (s.partOf (bhOf s.cur)) fun p =>
          { p with sigs := p.sigs.map fun (e : Sig) => { e with loaded := false } } else s
      gives x old s) s

/-- The records of the sectors of a pwrite that failed (Table 12-3). -/
def poisonFails (u : Nat) (a : State × List (Piece × Result)) : State :=
  a.2.foldl (fun s e => storeFailed (s.act u).reactor (s.act u).q.tag e.1 e.2 s) a.1

/-- One page's part of a pwrite through the page tables: its sectors poisoned, or the failure's record. (log 23, DEDUCED) -/
def poisonVirt (u va n : Nat) (s : State) : State :=
  let a := s.act u
  let err (addr cause : Nat) (phys : Bool) (peer : Nat) (s : State) : State := errorTo a.reactor
    { addr := BitVec.ofNat 64 addr, tagt := a.q.tagt, tagm := a.q.tagm, peer := BitVec.ofNat 32 peer,
      cause := BitVec.ofNat 8 cause, phys := phys } s
  let w := walkTables s (s.agent u 0) va
  let s := walkReads s (bhOf u) (s.agent u 0) va
  match w with
  | .leaf e lvl en =>
    if !tenantOk s e then err en 5 true u s
    else
      let p : Piece := { va := va, pa := leafPa e lvl va, n := n, lvl := lvl }
      poisonFails u (poisonPiece (s.agent u 0) p (addRange u p.pa n s))
  | .malformed en => err en 5 true u s
  | .refused en => err va 1 false (unitOfPa en) s
  | .dead en => err va 2 false (unitOfPa en) s
  | _ => err (va / 65536 * 65536) 8 false u s

/-- Poisons a range of generic addresses by 64 KiB pages; the fuel is the pages it can touch. (log 23, DEDUCED) -/
def poisonPages (u : Nat) : Nat → Nat → Nat → State → State
  | 0, _, _, s => s
  | f + 1, va, n, s =>
    if n = 0 then s
    else
      let m := min n (65536 - va % 65536)
      poisonPages u f (va + m) (n - m) (poisonVirt u va m s)

def execPwrite (g : Guard) (x : XA) (s : State) : Out :=
  privI g x (fun s =>
    let a := sysA x s
    let n := min (readZ x.b x.lit s) 16777216
    if n = 0 then advance (extLen x.lit) s
    else match place s.cur a n with
      | none | some (.frame ..) => trap 0x02 (BitVec.ofNat 64 a) s
      | some w =>
        if !allAcked s s.cur then waits 12 s
        else
          let one (core off : Nat) : State :=
            let p : Piece := { va := a, pa := spAddr core off, n := n }
            poisonFails s.cur (poisonPiece (s.agent s.cur 0) p (addRange s.cur p.pa n s))
          advance (extLen x.lit) (match w with
            | .sp core off | .far core off => one core off
            | _ => poisonPages s.cur (n / 65536 + 2) a n s)) s

end Sys2Proof.Machine
end

