-- ==== Sys2Proof/Machine/Wire.lean ====
section
/-! DEFINITION. Wire.lean: flits, their headers and bodies (R413, R414), and the packets of the work in flight. -/

namespace Sys2Proof.Machine

/-! ### Flits (Tables 22-2 to 22-5) -/

/-- CRC-64 of one more byte: polynomial 0x42F0E1EBA9EA3693, most significant bit first (R413). (log 37, DEDUCED) -/
def crc64Byte (c : W64) (b : Byte) : W64 :=
  (List.range 8).foldl (fun c _ => if c.getLsbD 63 then (c <<< 1) ^^^ 0x42F0E1EBA9EA3693 else c <<< 1)
    (c ^^^ (b.setWidth 64 <<< 56))
/-- The CRC of a flit's bytes 0 to 247. (log 37, DEDUCED) -/
def Flit.crcOf (hdr : W64) (body : BitVec 1792) (tag : BitVec 128) : W64 :=
  (leBytes 8 hdr.toNat ++ leBytes 224 body.toNat ++ leBytes 16 tag.toNat).foldl crc64Byte 0

def hdrType (h : W64) : Nat := (h.extractLsb' 60 4).toNat
def hdrKs (h : W64) : Bool := h.getLsbD 59
def hdrCmb (h : W64) : Bool := h.getLsbD 58
def hdrDev (h : W64) : Nat := (h.extractLsb' 48 10).toNat
def hdrAge (h : W64) : Nat := (h.extractLsb' 40 8).toNat
def hdrStamp (h : W64) : Nat := (h.extractLsb' 25 15).toNat
def hdrHold (h : W64) : Bool := h.getLsbD 24
def hdrSeq (h : W64) : BitVec 12 := h.extractLsb' 12 12
def hdrAck (h : W64) : BitVec 12 := h.extractLsb' 0 12
/-- A header with its AGE and STAMP set. -/
def hdrAged (h : W64) (age stamp : Nat) : W64 :=
  h.extractLsb' 48 16 ++ (BitVec.ofNat 8 (min age 255) ++ (BitVec.ofNat 15 stamp ++ h.extractLsb' 0 25))
/-- A header with its HOLD bit set. -/
def hdrHeld (h : W64) (b : Bool) : W64 := h.extractLsb' 25 39 ++ (BitVec.ofBool b ++ h.extractLsb' 0 24)
/-- A header of a type for a device, other fields zero. -/
def mkHdr (type dev : Nat) : W64 := BitVec.ofNat 64 (type * 2 ^ 60 + dev % 1024 * 2 ^ 48)
/-- A header that leaves a device's port now: STAMP is the device's time, modulo 2^15. -/
def State.stamped (s : State) (e : Nat) (h : W64) : W64 := if e < 32768 then hdrAged h (hdrAge h) (s.ns e % 2 ^ 15) else h
/-- Transaction, marker and member-notice flits are sequenced (R416). -/
def sequenced (h : W64) : Bool := hdrType h == 1 || hdrType h == 2 || hdrType h == 6

/-- n bytes of a body at an offset. -/
def bodyAt (b : BitVec 1792) (off n : Nat) : Nat := (b.toNat >>> (8 * off)) % 2 ^ (8 * n)
/-- A body from (offset, bytes, value) fields that do not overlap. -/
def mkBody (l : List (Nat × Nat × Nat)) : BitVec 1792 :=
  BitVec.ofNat 1792 (l.foldl (fun t e => t + (e.2.2 % 2 ^ (8 * e.2.1)) * 2 ^ (8 * e.1)) 0)

/-! ### Packets (R414) -/

/-- Fields of a famo's AUX: operation, size and member count; the spec names them and gives no places (log 9, PRESUMED). -/
def auxOp (b : BitVec 1792) : Nat := bodyAt b 0x0C 4 % 16
def auxSize (b : BitVec 1792) : Nat := bodyAt b 0x0C 4 / 16 % 256
def auxCount (b : BitVec 1792) : Nat := max 1 (bodyAt b 0x0C 4 / 2 ^ 16)

/-- Whether a famo may be combined (R231), by the body of its request and the device that it goes to: it adds, 4 or 8 bytes
naturally aligned, at a page of class RC or UO, on another device than its issuer's. (log 9, PRESUMED) -/
def mayCombine (b : BitVec 1792) (dev : Nat) : Bool :=
  bodyAt b 0 1 == 0x06 && auxOp b == 0 && (auxSize b == 4 || auxSize b == 8) && bodyAt b 0x10 8 % auxSize b == 0 &&
    (bodyAt b 1 1 / 32 % 4 == 1 || bodyAt b 1 1 / 32 % 4 == 2) && devOf (bodyAt b 4 4 % 2 ^ 27) != dev

/-- A transaction packet: the link end that sends it and the device that it goes to, then the fields of Tables 22-4 and 22-5, SRC with
its path. (log 9, PRESUMED) -/
structure Packet where
  port : Nat := 0
  dev : Nat := 0
  kind : Nat
  order : Nat := 0
  scope : Nat := 0
  cls : Nat := 0
  priv : Bool := false
  data : List Byte := []
  src : Nat := 0
  part : Nat := 0
  aux : Nat := 0
  pa : Nat := 0
  opnd : Nat := 0
  deriving DecidableEq, Repr

/-- A packet as a link end has still to seal it, under its TXID; CMB is set on a famo that may be combined (R231). -/
def Packet.plain (k : Packet) (txid : Nat) : Plain :=
  let body := mkBody [(0, 1, k.kind), (1, 1, k.order + 4 * k.scope + 32 * k.cls + 128 * k.priv.toNat), (2, 2, k.data.length),
    (4, 4, k.src), (8, 2, k.part % 2 ^ 15), (0x0A, 2, txid), (0x0C, 4, k.aux), (0x10, 8, k.pa), (0x18, 8, k.opnd), (0x20, 192, leNat k.data)]
  { hdr := mkHdr 1 k.dev ||| BitVec.ofNat 64 ((mayCombine body k.dev).toNat * 2 ^ 58), body := body }

/-- Addresses a packet that a bulkhead sends for a unit, on a path, to another: it leaves by the port of the target's number (R392);
none within one device. -/
def Packet.ask (s : State) (fb u path tb : Nat) (priv : Bool) (k : Packet) : Option Packet :=
  if devOfBh fb = devOfBh tb then none
  else some { k with port := devOfBh fb * 32 + tb % 32, dev := devOfBh tb, src := u + path * 2 ^ 27, part := s.partOf (bhOf u), priv := priv }

/-- A packet's answer, from its target to its issuer on the same plane, of a kind that the result gives: an error reply holds the class
of Table 20-2; a dead peer gives none. -/
def Packet.answer (q : Packet) (r : Result) (k : Packet) : Option Packet :=
  let a : Packet := { k with port := q.dev * 32 + q.port % 32, dev := devOf (q.src % 2 ^ 27), cls := q.cls, priv := q.priv, src := q.src,
                             part := q.part, pa := q.pa }
  match r with
  | .ok => some a
  | .deadPeer _ => none
  | e => some { a with kind := 0x10, aux := e.cls, data := [], opnd := 0 }

/-- AUX of an atomic: operation (15 for a compare and swap), size and count. (log 9, PRESUMED) -/
def Atomic.aux (a : Atomic) : Nat := (if a.cas then 15 else a.op) + 16 * a.size + 2 ^ 16

/-- The order field's code (R17). -/
def orderCode (acq rel : Bool) : Nat := acq.toNat + 2 * rel.toNat
/-- Words as bytes. -/
def wordBytes (l : List W64) : List Byte := l.flatMap fun w => leBytes 8 w.toNat
def pieceAsk (p : Piece) (k : Packet) : Packet := { k with cls := p.ord, pa := p.pa }

/-- The request packets of work in flight, each none within one device; a Weevil that forwards a chase, or sends a link write, sends its
packet itself. What the spec gives no kind for crosses unseen. (log 36, DESIGN CHOICE) -/
def Flight.asks (s : State) : Flight → List (Option Packet)
  | .load u _ d at? acq rel _ _ _ => (d.lanes.flatMap (·.2)).map fun p =>
      Packet.ask s (bhOf u) u 0 (bhOfPa p.pa) (s.act u).priv (pieceAsk p (match at? with
        | some a => { kind := 0x05, order := orderCode acq rel, scope := d.scope, aux := a.aux, opnd := a.b.toNat
                      data := if a.cas then leBytes 8 a.e.toNat else [] }
        | none => { kind := 0x01, order := orderCode acq rel, scope := d.scope, aux := p.n }))
  | .store q => [Packet.ask s (bhOf q.ts) q.ts 0 (bhOfPa q.p.pa) q.priv
      (pieceAsk q.p { kind := 0x03, order := orderCode false q.rel, scope := q.scope, data := q.bytes })]
  | .weevil q => [Packet.ask s (q.via.getD (bhOf q.ts)) q.ts 3 (bhOfPa q.p.pa) q.priv (pieceAsk q.p (match q.w with
      | .famo a => { kind := 0x06, order := orderCode q.acq q.rel, scope := q.scope, aux := a.aux, opnd := a.b.toNat }
      | .mcas _ e n => { kind := 0x07, order := orderCode q.acq q.rel, scope := q.scope, aux := e.length, data := wordBytes (e ++ n) }
      | .lenq n => { kind := 0x08, order := orderCode q.acq q.rel, scope := q.scope, opnd := n }
      | .link n .. =>
        if q.via.isSome then { kind := 0x03, order := orderCode false q.rel, scope := q.scope, data := leBytes 8 n }
        else { kind := 0x08, order := orderCode q.acq q.rel, scope := q.scope, opnd := n }
      | .pchase k h .. => { kind := 0x09, order := orderCode q.acq q.rel, scope := q.scope, aux := h, opnd := k.toNat }))]
  | .entry r q o => [match o with
      | .ingress | .start _ => none
      | _ => Packet.ask s (bhOf q.sender.toNat) q.sender.toNat 0 (bhOfReac r) false { kind := 0x0B, opnd := r, data := q.bytes }]
  | .credit r i =>
      let u := (((s.re r).conns[i]?.map (·.tcore)).getD 0) * 4
      [Packet.ask s (bhOf u) u 0 (bhOfReac r) false { kind := 0x0C, aux := i, opnd := r }]
  | .notice r i cl slot => [Packet.ask s (bhOfClu cl) (cl * 1024) 0 (bhOfReac r) false { kind := 0x12, aux := slot, opnd := r, data := leBytes 8 i }]
  | .noticeAck cl slot bh => [Packet.ask s bh (bh * 4096) 0 (bhOfClu cl) false { kind := 0x12, aux := slot + 2 ^ 16, opnd := cl }]
  | .pin w leaf .. =>
      let cl := match w with
        | .dispatch r | .side r _ => cluOfReac r
        | .lateMiss u .. | .code u _ | .skip u => cluOf u
      [Packet.ask s (bhOfClu cl) (cl * 1024) 0 (bhOfPa (leafAddr leaf)) false { kind := 0x0F, pa := leafAddr leaf, data := leBytes 16 leaf.toNat }]
  | _ => []

/-- The bulkhead whose Weevil answers an operation: where it has come to, or where lenq's header lies. -/
def WeevilReq.answers (q : WeevilReq) : Nat := match q.w with
  | .link .. => q.via.getD (bhOfPa q.p.pa)
  | _ => bhOfPa q.p.pa

/-- The reply packets of work in flight once its target has acted, one for each request packet; none while it has not. A Weevil answers
the issuer from where the operation has ended. -/
def Flight.answers (s : State) (f : Flight) : Option (List (Option Packet)) :=
  let replies (l : List (Option Packet × Result × Packet)) : List (Option Packet) :=
    l.filterMap fun e => e.1.map fun q => q.answer e.2.1 e.2.2
  match f with
  | .load _ _ d at? _ _ _ _ (some gs) =>
    let pieces := d.lanes.flatMap fun l =>
      (l.2.foldl (fun (acc : List (Nat × Nat × Piece) × Nat) p => (acc.1 ++ [(l.1, acc.2, p)], acc.2 + p.n)) ([], 0)).1
    some (replies ((f.asks s).zip pieces |>.map fun e =>
      let g := (gs.find? fun g => g.lane == e.2.1).getD { lane := e.2.1 }
      let bs := (g.bytes.drop e.2.2.1).take e.2.2.2.n
      (e.1, g.res, if at?.isSome then { kind := 0x0A, opnd := leNat bs } else { kind := 0x02, data := bs })))
  | .store q => if q.performed then some (replies ((f.asks s).map fun e => (e, q.res, { kind := 0x04 }))) else none
  | .weevil q => q.reply.map fun r =>
    let w := q.answers
    let ask := Packet.ask s (bhOf q.ts) q.ts 3 w q.priv
      { kind := 0x0A, cls := q.p.ord, pa := if bhOfPa q.p.pa = w then q.p.pa else hbmAddr w 0 }
    replies [(ask, r.res, match q.w with
      | .pchase .. => { kind := if r.v.toNat % 16 = 3 then 0x11 else 0x0A, opnd := r.v.toNat }
      | _ => { kind := 0x0A, opnd := r.v.toNat, data := wordBytes r.words })]
  | .pin _ _ _ _ _ (some a) => some (replies ((f.asks s).map fun e => (e, .ok, { kind := 0x0F, aux := a + 2 ^ 16 })))
  | _ => none

/-- The acknowledgement of a link write, to the Weevil that sent it. -/
def WeevilReq.linkAck (s : State) (q : WeevilReq) : Option Packet :=
  match q.w, q.via, q.reply with
  | .link .., some w, some r =>
    ((Packet.ask s w q.ts 3 (bhOfPa q.p.pa) q.priv (pieceAsk q.p { kind := 0x03 })).bind fun k => k.answer r.res { kind := 0x04 }).map
      fun (k : Packet) => { k with dev := devOfBh w }
  | _, _, _ => none

/-- The parts of bytes that one flit carries each (R414), with their offsets. -/
def chunks : Nat → Nat → List Byte → List (Nat × List Byte)
  | 0, _, _ => []
  | f + 1, o, bs => if bs.isEmpty then [] else (o, bs.take 192) :: chunks f (o + 192) (bs.drop 192)

/-- The packets of an access that crosses within a step: each part's request and its answer. (log 36, DESIGN CHOICE) -/
def Crossing.packets (s : State) (x : Crossing) : List (Packet × Option Packet) :=
  (chunks (x.bytes.length / 192 + 1) 0 x.bytes).filterMap fun e =>
    (Packet.ask s x.bh x.unit x.path (bhOfPa x.pa) x.priv
      { kind := if x.wr then 0x03 else 0x01, cls := x.cls, aux := e.2.length, pa := x.pa + e.1, data := if x.wr then e.2 else [] }).map
      fun k => (k, (k.answer .ok { kind := if x.wr then 0x04 else 0x02, data := if x.wr then [] else e.2 }).map
        fun (a : Packet) => { a with dev := devOfBh x.bh })

/-- Whether a packet of a kind answers another. -/
def repliesKind (b : BitVec 1792) : Bool :=
  let k := bodyAt b 0 1
  k == 2 || k == 4 || k == 0x0A || k == 0x10 || k == 0x11 || (k == 0x0F && 2 ^ 16 ≤ bodyAt b 0x0C 4)

end Sys2Proof.Machine
end

