-- ==== Sys2Proof/Machine/Fabric.lean ====
section
/-! DEFINITION. Fabric.lean: the links (R411, R413 to R416, R425 to R429), the switches (R412, R417, R418, R420, R421, R430),
heartbeats and dead members (R121, R344, R423, R424). -/

namespace Sys2Proof.Machine

/-! ### Link ends -/

/-- The other end of a link. Up port 96 + 16 k + m of leaf i of a plane meets down port 16 i + m of spine k (R412).
(log 54, DESIGN CHOICE) -/
def peerEnd (e : Nat) : Nat :=
  if e < 32768 then e + 32768
  else if e < 65536 then e - 32768
  else
    let w := (e - 65536) / 256
    let p := e % 256
    let i := w % 17
    if i < 11 then 65536 + 256 * (w - i + 11 + (p - 96) / 16) + 16 * i + p % 16
    else 65536 + 256 * (w - i + p / 16) + 96 + 16 * (i - 11) + p % 16
/-- The end of a link at which its healthy lanes are noted: the device's, which its REPAIR section governs too, else the leaf's. -/
def laneEnd (e : Nat) : Nat := if e < 32768 then e else if e < 65536 then e - 32768 else min e (peerEnd e)
/-- The switch and port at a link end, none for a device's end. -/
def endSwitch (e : Nat) : Option (Nat × Nat) :=
  if e < 32768 then none
  else if e < 65536 then
    let b := e - 32768
    some (17 * (b % 32) + b / 32 / 96, b / 32 % 96)
  else some ((e - 65536) / 256, e % 256)
/-- Whether the switch at a link end has failed. -/
def endFailed (e : Nat) (s : State) : Bool :=
  match endSwitch e with
  | some (w, _) => (s.swi w).failed
  | none => false
/-- Whether the hold register of the input at a link end is full. -/
def endHolds (e : Nat) (s : State) : Bool :=
  match endSwitch e with
  | some (w, p) => (s.swi w).hold.any fun h => h.1 == p
  | none => false
/-- Adds to a saturating 16-bit count (Table 22-8). -/
def sat16 (c : BitVec 16) (n : Nat) : BitVec 16 := BitVec.ofNat 16 (min (c.toNat + n) 0xFFFF)
def modSlot {α : Type} (v : Vector α 2) (k : Bool) (x : α) : Vector α 2 := v.set! k.toNat x

/-- The counter value at which a slot gives way to the other (R427). -/
def keyLimit : Nat := 2 ^ 40 - 2 ^ 24
def Link.tx (l : Link) : Nat := l.txCtr[l.ks.toNat]?.getD 0
/-- A marker is due. -/
def Link.due (l : Link) : Bool := keyLimit ≤ l.tx

/-- The nonce of a flit: the sender's link id, then the invocation counter (R426). -/
def nonceOf (e ctr : Nat) : BitVec 96 := Config.linkId e ++ BitVec.ofNat 64 ctr

/-- AES-256-GCM: sealing gives the encrypted body and the tag, and opening the clear body when the tag authenticates, HDR being
the additional data (R426). That a body is combined bit by bit with a key stream is the cipher's own definition (log 2, PRESUMED). -/
def gcmSeal (k : Nat) (nonce : BitVec 96) (hdr : W64) (body : BitVec 1792) : BitVec 1792 × BitVec 128 :=
  let c := body ^^^ Config.gcmStream k nonce
  (c, Config.gcmTag k nonce hdr c)
def gcmOpen (k : Nat) (nonce : BitVec 96) (hdr : W64) (c : BitVec 1792) (tag : BitVec 128) : Option (BitVec 1792) :=
  if tag = Config.gcmTag k nonce hdr c then some (c ^^^ Config.gcmStream k nonce) else none

/-- A flit as an end sends it: HOLD says whether the register of that end's input is full (R418). -/
def Plain.held (e : Nat) (s : State) (p : Plain) : Plain := { p with hdr := hdrHeld p.hdr (endHolds e s) }

/-- Seals one new flit under the slot in use and puts it on its way (R416, R426). -/
def Link.push (e : Nat) (p : Plain) (l : Link) : Link :=
  let hdr : W64 := p.hdr.extractLsb' 60 4 ++ (BitVec.ofBool l.ks ++ (p.hdr.extractLsb' 24 35 ++ (l.seq ++ l.rxSeq)))
  let ctr := l.tx
  let b := gcmSeal ((l.txKey[l.ks.toNat]?.getD none).getD 0) (nonceOf e ctr) hdr p.body
  let f : Flit := { hdr := hdr, body := b.1, tag := b.2, crc := Flit.crcOf hdr b.1 b.2 }
  let l := { l with out := l.out ++ [f], txCtr := modSlot l.txCtr l.ks (ctr + 1), grants := l.grants + (hdrType p.hdr == 1).toNat }
  if sequenced p.hdr then { l with seq := l.seq + 1, retry := l.retry ++ [(f, p)] } else l

/-- The link goes down for retrain and rekey, at both ends (R427, R428). -/
def goRetrain (e : Nat) (s : State) : State :=
  let one (s : State) (e : Nat) : State := s.modLi e fun l => { l with up := 1, out := [], cut := 0, retrain := sat16 l.retrain 1 }
  one (one s e) (peerEnd e)

/-- The marker is sealed at the limit, and sealing moves to the other slot; with that slot empty the link retrains. -/
def keySwitch (e : Nat) (s : State) : State :=
  let l := s.li e
  if l.up ≠ 2 ∨ !l.due then s
  else if (l.txKey[(!l.ks).toNat]?.getD none).isNone then goRetrain e s
  else if 256 ≤ l.retry.length then s
  else s.modLi e fun l =>
    let m := l.push e (Plain.held e s { hdr := s.stamped e (mkHdr 2 0), body := mkBody [(0, 1, (!l.ks).toNat)] })
    { m with ks := !l.ks, txKey := modSlot m.txKey l.ks none }

/-- Sends an idle flit on a link that is up, once a marker that is due has gone (R416, R427). -/
def sendIdle (e : Nat) (s : State) : State :=
  let s := keySwitch e s
  if (s.li e).up ≠ 2 ∨ (s.li e).due then s
  else s.modLi e fun l => l.push e (Plain.held e s { hdr := s.stamped e (mkHdr 0 0), body := 0 })

/-- Sends a flit on a link that is up: a sequenced one waits while the retry buffer is full, and the sender sends an idle flit; on a
link that trains it waits for the training, and an unsequenced one is dropped (R416). -/
def sendFlit (e : Nat) (p : Plain) (s : State) : State :=
  if (s.li e).up = 0 ∨ ((s.li e).up ≠ 2 ∧ !sequenced p.hdr) then s
  else
    let s := keySwitch e s
    let l := s.li e
    if sequenced p.hdr ∧ (l.up ≠ 2 ∨ l.due ∨ 256 ≤ l.retry.length ∨ !l.backlog.isEmpty) then
      let s := s.modLi e fun l => { l with backlog := l.backlog ++ [p] }
      if l.up = 2 ∧ !l.due ∧ 256 ≤ l.retry.length then sendIdle e s else s
    else if l.up ≠ 2 ∨ l.due then s
    else s.modLi e fun l => l.push e (p.held e s)

/-- Which of the flits that wait at an end goes next (R422): in the first of every 64 slots granted, a chase that a Weevil forwards,
whose AUX counts the nodes read; else a reply first, and the rest in order of arrival. -/
def nextWaiting (l : Link) : Option Plain :=
  let forwarded (p : Plain) : Bool := hdrType p.hdr == 1 && bodyAt p.body 0 1 == 9 && bodyAt p.body 0x0C 4 != 0
  let reply (p : Plain) : Bool := hdrType p.hdr == 1 && repliesKind p.body
  ((if l.grants % 64 = 0 then l.backlog.find? forwarded else none).or (l.backlog.find? reply)).or l.backlog.head?

/-- Sends what waits as far as the retry buffer has room. -/
def flushLink : Nat → Nat → State → State
  | 0, _, s => s
  | f + 1, e, s =>
    match nextWaiting (s.li e) with
    | none => s
    | some p =>
      if 256 ≤ (s.li e).retry.length ∨ (s.li e).up ≠ 2 then s
      else
        let rest := (s.li e).backlog.erase p
        let s := sendFlit e p (s.modLi e fun l => { l with backlog := [] })
        flushLink f e (s.modLi e fun l => { l with backlog := l.backlog ++ rest })

/-- Acknowledged flits leave the retry buffer. -/
def Link.acked (l : Link) (ack : BitVec 12) : Link :=
  let n := l.retry.length
  let k := (ack - (l.seq - BitVec.ofNat 12 n) + 1).toNat
  if k ≤ n then { l with retry := l.retry.drop k } else l
def ackFlits (e : Nat) (ack : BitVec 12) (s : State) : State := flushLink 256 e (s.modLi e fun l => l.acked ack)

/-- NAK_RECEIVED: the sender goes back to ACK + 1 and resends, byte for byte (R416). -/
def nakFlits (e : Nat) (ack : BitVec 12) (s : State) : State :=
  if (s.li e).up ≠ 2 then s
  else (ackFlits e ack s).modLi e fun l =>
    { l with out := l.out ++ l.retry.map (·.1), replay := sat16 l.replay l.retry.length }
def execNakReceived (e : Nat) (ack : BitVec 12) (s : State) : Out := .next (nakFlits e ack s)

/-- KEY_SWITCH_MARKER (R427). -/
def execKeySwitchMarker (e : Nat) (s : State) : Out := .next (keySwitch e s)

/-- RETIRED_SLOT_KEY_LOAD: firmware loads a slot that both ends of a direction have retired with one fresh key (R427). -/
def loadSlot (e : Nat) (s : State) : State :=
  let l := s.li e
  let k := !l.ks
  let g := max l.txGen (s.li (peerEnd e)).rxGen
  if (l.txKey[k.toNat]?.getD none).isSome ∨ ((s.li (peerEnd e)).rxKey[k.toNat]?.getD none).isSome ∨ (l.txKey[l.ks.toNat]?.getD none).isNone then s
  else
    let s := s.modLi e fun l => { l with txKey := modSlot l.txKey k (some g), txGen := g + 1, txCtr := modSlot l.txCtr k 0 }
    s.modLi (peerEnd e) fun l => { l with rxKey := modSlot l.rxKey k (some g), rxGen := g + 1, rxCtr := modSlot l.rxCtr k 0 }
def execRetiredSlotKeyLoad (e : Nat) (s : State) : Out := .next (loadSlot (peerEnd e) (loadSlot e s))

/-! ### Ports of a switch -/

/-- The output that a flit wants; the up port, or the link of a spine to a leaf, is the switch's free choice. -/
def wantPort (w : Nat) (hdr : W64) (up : Nat) : Nat :=
  let leaf := hdrDev hdr / 96
  if w % 17 < 11 then (if leaf = w % 17 then hdrDev hdr % 96 else 96 + up % 96) else leaf * 16 + up % 16

/-- Whether a switch is a leaf: its place in the plane is the role that its verified image gives it (R412, R430). (log 54, DESIGN
CHOICE) -/
def isLeaf (w : Nat) : Bool := w % 17 < 11
/-- The down ports of a leaf that devices use: leaf 10 uses 64. -/
def downPorts (w : Nat) : Nat := if w % 17 = 10 then 64 else 96
/-- The ports of a switch that are used (R412). -/
def portsOf (w : Nat) : List Nat :=
  if isLeaf w then List.range (downPorts w) ++ (List.range 96).map (96 + ·) else List.range 176
/-- The device on a down port of a leaf. -/
def leafDev (w port : Nat) : Nat := w % 17 * 96 + port
/-- The link end of a switch's port: a leaf's down port ends a device's link. (log 54, DESIGN CHOICE) -/
def switchEnd (w port : Nat) : Nat :=
  if isLeaf w ∧ port < 96 then 32768 + leafDev w port * 32 + w / 17 else 65536 + 256 * w + port

/-- The replies of a split record's members, in order: M plus the operands before, or an error each; they go on with the AGE and STAMP of
the reply that is split, and its SPART (R421). -/
def splitReplies (r : Split) (m err age stamp : Nat) : List Plain :=
  (r.members.foldl (fun (acc : List Plain × Nat) e =>
    let dev := devOf (e.1.toNat % 2 ^ 27)
    let p := Packet.plain { kind := if err = 0 then 0x0A else 0x10, dev := dev, src := e.1.toNat, part := r.part, priv := r.priv, cls := 1, aux := err
                            pa := r.pa, opnd := if err = 0 then acc.2 % 2 ^ (8 * r.size) else 0 } e.2.1.toNat
    (acc.1 ++ [{ p with hdr := hdrAged p.hdr age stamp }], acc.2 + e.2.2.toNat)) ([], m)).1

/-- Splits a record: its replies wait for their outputs. -/
def splitRec (w id m err age stamp : Nat) (s : State) : State :=
  match (s.swi w).splits.find? fun r => r.id == id with
  | none => s
  | some r => s.modSw w fun k =>
      { k with splits := k.splits.filter fun x => x.id != id
               own := k.own ++ (splitReplies r m err age stamp).map fun p => (none, p) }

/-- The records that wait at a port which goes down: an error reply to each member (R421). -/
def portFails (e : Nat) (s : State) : State :=
  match endSwitch e with
  | none => s
  | some (w, p) => ((s.swi w).splits.filter fun r => r.port == p).foldl (fun s r => splitRec w r.id 0 6 0 0 s) s

/-! ### Widths and training (R411, R425, R428) -/

/-- The width code of Table 22-8 for healthy lanes: 0 eight, 1 four, 2 two, 3 one; 4 none. -/
def widthOf (lanes : Byte) : Nat :=
  if lanes = 0xFF then 0
  else if lanes &&& 0x0F = 0x0F ∨ lanes &&& 0xF0 = 0xF0 then 1
  else if (List.range 4).any fun i => lanes.extractLsb' (2 * i) 2 == 3 then 2
  else if lanes ≠ 0 then 3 else 4

/-- One end trains: fresh keys, which both ends of a direction share, counters and SEQ at zero, the retry buffer sealed anew (R428). -/
def Link.trained (e : Nat) (lanes : Byte) (tx rx : Nat) (l : Link) : Link :=
  let w := widthOf lanes
  let old := l.retry
  old.foldl (fun l p => l.push e p.2)
    { l with up := if w = 4 then 0 else 2, width := BitVec.ofNat 2 w, ks := false, seq := 0, retry := [], out := []
             txKey := #v[some tx, some (tx + 1)], txGen := tx + 2, txCtr := Vector.replicate 2 0
             rxKey := #v[some rx, some (rx + 1)], rxGen := rx + 2, rxCtr := Vector.replicate 2 0
             cut := 0, rxSeq := 0xFFF, rxTop := 0xFFF, rxLast := false, rxSeen := [], waitSeq := none, fails := 0, unseqFails := 0 }
/-- A link trains at both ends; a failed switch's links stay down (R430). -/
def trainLink (e : Nat) (s : State) : State :=
  let lanes := (s.li (laneEnd e)).lanes
  let p := peerEnd e
  let out := max (s.li e).txGen (s.li p).rxGen
  let back := max (s.li p).txGen (s.li e).rxGen
  if endFailed e s || endFailed p s then s
  else (s.modLi e (Link.trained e lanes out back)).modLi p (Link.trained p lanes back out)

/-- RETRAIN_DONE: a link whose bulkhead has been reset begins to train; else a retrain ends (R428), and what waited is sent. A link of
a failed switch stays down (R430). (log 42, DEDUCED) -/
def execRetrainDone (e : Nat) (s : State) : Out :=
  .next (if endFailed e s || endFailed (peerEnd e) s then s
  else if (s.li e).starts then s.modLi e fun l => { l with starts := false, up := 1 }
  else if (s.li e).up = 1 then flushLink 256 e (flushLink 256 (peerEnd e) (trainLink e s)) else s)

/-- The lanes of a width code that a link uses, as a mask: the lowest group of that many, at its own multiple, that is healthy
(R411). -/
def usedLanes (lanes : Byte) (width : Nat) : Nat :=
  let n := 8 >>> width
  ((((List.range (8 / n)).map fun i => (2 ^ n - 1) <<< (n * i)).find? fun m => lanes.toNat &&& m == m)).getD 0

/-- A lane in use has failed: the flits on their way are cut, and those of the retry buffer go again, byte for byte (R425). -/
def Link.narrow (w : Nat) (l : Link) : Link :=
  if l.up ≠ 2 then { l with up := if w = 4 then 0 else l.up }
  else if w = 4 then { l with up := 0, out := [], cut := 0 }
  else { l with width := BitVec.ofNat 2 (max w l.width.toNat), cut := l.out.length
                replay := sat16 l.replay (l.out.filter fun f => sequenced f.hdr).length }

/-- LANE_FAILURE: a link that used the lane goes on at the widest width that its healthy lanes allow, and sends the flit cut and every
later one again, or goes down (R425). -/
def execLaneFailure (e lane : Nat) (s : State) : Out :=
  .next (let d := laneEnd e
         let l := s.li d
         let w := widthOf (l.lanes &&& ~~~(1#8 <<< lane))
         let s := s.modLi d fun l => { l with lanes := l.lanes &&& ~~~(1#8 <<< lane) }
         if w ≠ 4 ∧ (usedLanes l.lanes l.width.toNat).testBit lane = false then s
         else
           let s := (s.modLi d (Link.narrow w)).modLi (peerEnd d) (Link.narrow w)
           if w = 4 then portFails d (portFails (peerEnd d) s) else s)

/-! ### Dead members (R121, R344, R424) -/

/-- The cluster whose sequencer sent a pin message. -/
def WalkFor.clu : WalkFor → Nat
  | .dispatch r | .side r _ => cluOfReac r
  | .lateMiss u .. | .code u _ | .skip u => cluOf u

/-- A request of an observer to a dead member whose reply is outstanding fails (Table 06-1). -/
def failOut (bh tb : Nat) (f : Flight) : Flight :=
  let mine (u : Nat) : Bool := devOf u == devOfBh bh
  let hit (p : Piece) : Bool := bhOfPa p.pa == tb
  match f with
  | .load u c d a q w r pc (some gs) =>
    if !mine u then f
    else .load u c d a q w r pc (some (gs.map fun g =>
      match ((d.lanes.find? fun l => l.1 == g.lane).map (·.2)).getD [] |>.find? hit with
      | some p => { g with res := .deadPeer p.va }
      | none => g))
  | .store q => if mine q.ts && hit q.p && q.performed && q.res == .ok then .store { q with res := .deadPeer q.p.va } else f
  | .weevil q =>
    if devOfBh (q.via.getD (bhOf q.ts)) == devOfBh bh && hit q.p && q.reply.isSome then
      .weevil { q with reply := some { res := .deadPeer q.p.va, unit := unitOfPa q.p.pa } }
    else f
  | .pin w leaf lvl va en (some 0) =>
    if bhOfPa (leafAddr leaf) == tb && devOfBh (bhOfClu w.clu) == devOfBh bh then .pin w leaf lvl va en (some 2) else f
  | _ => f

/-- Whether a connection is a dead device's to a reactor of a bulkhead. -/
def deadConn (s : State) (dev bh r : Nat) (c : Conn) : Bool :=
  devOfBh (bhOfReac r) == dev && c.valid && bhOfReac (liveKey s 8 c.target) == bh

/-- Every unit that the connections of a dead device hold of entries in a bulkhead returns to the target that granted it: those
free to use, granted spares, and credits on their way (R344). A unit in use returns when its entry is freed. -/
def unitsBack (dev bh : Nat) (s : State) : State :=
  let held := s.reac.flatMap fun e => (e.2.conns.filter (deadConn s dev bh e.1)).map fun c =>
    (liveKey s 8 c.target, c.f + c.granted.toNat)
  let coming := s.flight.filterMap fun e => match e.2 with
    | .credit r i => ((s.re r).conns[i]?.filter (deadConn s dev bh r)).map fun c => (e.1, liveKey s 8 c.target)
    | _ => none
  let s1 := { s with
    reac := s.reac.map fun (e : Nat × Reactor) => (e.1, { e.2 with
      conns := e.2.conns.map fun (c : Conn) =>
        if deadConn s dev bh e.1 c then { c with f := 0, granted := false, asked := false } else c
      spareReqs := if bhOfReac e.1 = bh then e.2.spareReqs.filter fun (q : Nat × Nat) => devOfBh (bhOfReac q.1) != dev
        else e.2.spareReqs })
    flight := s.flight.filter fun (e : Nat × Flight) => !coming.any fun (c : Nat × Nat) => c.1 == e.1 }
  (held ++ coming.map fun (c : Nat × Nat) => (c.2, 1)).foldl (fun (s : State) (e : Nat × Nat) =>
    s.modRe e.1 fun x => { x with spares := x.spares + e.2 }) s1

/-- An observer's bulkhead marks a device down on its plane: outstanding requests fail, waiting events are dropped, and the
entries that the dead member's connections hold return to their targets. -/
def markDown (bh dev : Nat) (s : State) : State :=
  let tb := dev * 32 + bh % 32
  if (s.bu bh).deadMap.contains dev ∨ dev = devOfBh bh then s
  else
    let s := s.modBu bh fun b => { b with deadMap := dev :: b.deadMap }
    let s := { s with flight := s.flight.map fun (e : Nat × Flight) => (e.1, failOut bh tb e.2) }
    let s := unitsBack dev bh s
    (s.reac.filter fun e => devOfBh (bhOfReac e.1) == devOfBh bh).foldl (fun s e =>
      (List.range e.2.conns.length).foldl (fun s i => drainConn (waitingOn s e.1 i).length e.1 i s) s) s

/-- MEMBER_NOTICE: an observer takes a notice; an "up" notice changes nothing (R424). -/
def execMemberNotice (bh dev : Nat) (up : Bool) (s : State) : Out := .next (if up then s else markDown bh dev s)

/-! ### Member notices and heartbeats at a switch (R415, R423) -/

/-- A member notice as a leaf sends it (R415). -/
def noticeFlit (w dev : Nat) (up : Bool) : Plain :=
  { hdr := mkHdr 6 0, body := mkBody [(0, 2, dev), (2, 2, w / 17), (4, 1, up.toNat)] }
/-- A switch sends a flit of its own on ports. -/
def sendOwn (w : Nat) (ports : List Nat) (p : Plain) (s : State) : State :=
  s.modSw w fun k => { k with own := k.own ++ ports.map fun i => (some i, p) }
/-- The link of the 16 to another switch that a notice takes: the first that is up, else the first that trains. (log 58, DESIGN CHOICE) -/
def upLink (w : Nat) (s : State) (first : Nat) : Option Nat :=
  let ports := (List.range 16).map (first + ·)
  (ports.find? fun p => (s.li (switchEnd w p)).up == 2).or (ports.find? fun p => (s.li (switchEnd w p)).up != 0)
/-- Where a member notice goes on: from a spine to every leaf, from a leaf to every device port whose link is not down. -/
def noticePorts (w : Nat) (s : State) : List Nat :=
  if isLeaf w then (List.range (downPorts w)).filter fun p => (s.li (switchEnd w p)).up != 0
  else (List.range 11).filterMap fun i => upLink w s (16 * i)
/-- A leaf sends a notice through every spine; for a leaf that has failed, each spine begins it (R430). (log 54, DESIGN CHOICE) -/
def sendNotice (w dev : Nat) (up : Bool) (s : State) : State :=
  if (s.swi w).failed then
    (List.range 6).foldl (fun s i =>
      let v := w / 17 * 17 + 11 + i
      if (s.swi v).failed then s else sendOwn v (noticePorts v s) (noticeFlit w dev up) s) s
  else sendOwn w ((List.range 6).filterMap fun i => upLink w s (96 + 16 * i)) (noticeFlit w dev up) s
/-- A leaf notes a heartbeat at a time; a device that it held down is up again. -/
def noteHeartbeat (w port ns : Nat) (s : State) : State :=
  if (s.swi w).failed ∨ !isLeaf w ∨ downPorts w ≤ port then s
  else
    let s := s.modSw w fun k => { k with hbLast := Map.set k.hbLast port ns }
    if (s.swi w).downDev.contains port then
      sendNotice w (leafDev w port) true (s.modSw w fun k => { k with downDev := k.downDev.filter (· != port) })
    else s
/-- A heartbeat flit that a leaf takes from a device's port is noted at the time of the device's bulkhead. (log 54, DESIGN CHOICE) -/
def heartbeatIn (e : Nat) (s : State) : State :=
  if e < 32768 ∨ 65536 ≤ e then s
  else match endSwitch e with
    | some (w, port) => noteHeartbeat w port (s.ns (e - 32768)) s
    | none => s

/-! ### Receiving (R416, R427, R428) -/

/-- A transaction kind that Table 22-5 assigns. -/
def kindOk (k : Nat) : Bool := 1 ≤ k && k ≤ 0x12

/-- The members that a combined request to an address stands for, in order, each with its operand: by the records of the switches that
combined it, which its SRC and TXID, its count and the address name. -/
def membersOf (s : State) (pa : Nat) : Nat → Nat × Nat → Nat → Nat → List ((Nat × Nat) × Nat)
  | 0, k, _, opnd => [(k, opnd)]
  | f + 1, k, n, opnd =>
    match (s.sw.flatMap fun e => e.2.splits).find? fun r => decide (2 ≤ n) && r.pa == pa && r.counts.foldl (· + ·) 0 == n &&
        (r.members.head?.map fun m => (m.1.toNat, m.2.1.toNat)) == some k with
    | none => [(k, opnd)]
    | some r => (r.members.zip r.counts).flatMap fun m => membersOf s pa f (m.1.1.toNat, m.1.2.1.toNat) m.2 m.1.2.2.toNat

/-- What a packet on its way is known by: its SRC with the bulkhead that it asks, and its TXID. -/
def wireKey (src tb txid : Nat) : Nat × Nat := (src + tb * 2 ^ 32, txid)

/-- A packet reaches the gate of its target, or its issuer: what it belongs to may go on. A combined request comes for all its
members, which are then performed as one (R420, R421). An error reply of class "dead peer" fails a request that has not been performed
(R421); a reply to what is over is discarded (R422). (log 36, DESIGN CHOICE) -/
def packetIn (e : Nat) (b : BitVec 1792) (s : State) : State :=
  let back := repliesKind b
  let pa := bodyAt b 0x10 8
  let tb := if back then devOfBh (bhOfPa pa) * 32 + e % 32 else e
  let k := (bodyAt b 4 4, bodyAt b 0x0A 2)
  let key := wireKey k.1 tb k.2
  let ms := if bodyAt b 0 1 = 6 then (membersOf s pa 12 k (auxCount b) (bodyAt b 0x18 8)).map fun m => (wireKey m.1.1 tb m.1.2, m.2)
    else [(key, 0)]
  let led := decide (2 ≤ ms.length) && s.wire.any fun e => e.2.due.contains key
  let came (e : Nat × Wire) : Nat × Wire :=
    if e.2.back == back && e.2.due.any fun k => ms.any fun m => m.1 == k then
      (e.1, { e.2 with due := e.2.due.filter fun k => ms.all fun m => m.1 != k
                       split := e.2.split || (led && !e.2.due.contains key)
                       group := if led && e.2.due.contains key then ms else e.2.group })
    else e
  let s := { s with wire := s.wire.map came }
  if bodyAt b 0 1 = 0x10 ∧ bodyAt b 0x0C 4 = 6 then
    (s.wire.filter fun e => !e.2.back && e.2.asks.contains key).foldl (fun s e => nextOf (execReplyTimeout e.1 s) s) s
  else s

/-- The device that sent a transaction packet: the issuer's, or for a reply the target's. -/
def senderDev (b : BitVec 1792) : Nat := if repliesKind b then devOfBh (bhOfPa (bodyAt b 0x10 8)) else devOf (bodyAt b 4 4 % 2 ^ 27)

/-- A flit waits for a slot of the switch at a link end. -/
def toSwitch (e : Nat) (p : Plain) (s : State) : State :=
  match endSwitch e with
  | some (w, port) => if (s.swi w).failed then s else s.modSw w fun k => { k with inp := k.inp ++ [(port, p)] }
  | none => s

/-- A flit for another device goes back on the next egress slot, as a deflection (R417). -/
def sendBack (e : Nat) (p : Plain) (s : State) : State :=
  sendFlit e { p with hdr := hdrAged p.hdr (hdrAge p.hdr + 64) (hdrStamp p.hdr) } s

/-- What an accepted sequenced flit does: at a switch it waits for its slot. At a device's ingress a transaction for another device
goes back (R417), one from a dead member is discarded (R424), one of a reserved kind is recorded (R414), another reaches what it is for;
a notice is taken. -/
def accepted (e : Nat) (p : Plain) (s : State) : State :=
  if 32768 ≤ e then (if hdrType p.hdr = 2 then s else toSwitch e p s)
  else if hdrType p.hdr = 1 then
    if hdrDev p.hdr ≠ devOfBh e then sendBack e p s
    else if (s.bu e).deadMap.contains (senderDev p.body) then s
    else if kindOk (bodyAt p.body 0 1) then packetIn e p.body s
    else logTo e { cause := 10, peer := BitVec.ofNat 32 (e * 4096) } s
  else if hdrType p.hdr = 6 ∧ bodyAt p.body 4 1 = 0 then markDown e (bodyAt p.body 0 2) s
  else s

/-- Opens a flit under a counter of its slot. -/
def Link.opens (e ctr : Nat) (f : Flit) (l : Link) : Option (BitVec 1792) :=
  if f.crc ≠ Flit.crcOf f.hdr f.body f.tag then none
  else match l.rxKey[(hdrKs f.hdr).toNat]?.getD none with
    | none => none
    | some k => gcmOpen k (nonceOf (peerEnd e) ctr) f.hdr f.body f.tag

/-- The slot under which the next new flit is sealed: a slot ends with its marker. -/
def Link.rxSlot (l : Link) : Bool := if l.rxCtr[l.rxLast.toNat]?.getD 0 ≤ keyLimit then l.rxLast else !l.rxLast
/-- Files the counters of the sequenced flits before `q` of which none has arrived whole. (log 37, DEDUCED) -/
def Link.fill : Nat → BitVec 12 → Link → Link
  | 0, _, l => l
  | n + 1, q, l =>
    if l.rxTop + 1 = q then l
    else
      let k := l.rxSlot
      let c := l.rxCtr[k.toNat]?.getD 0
      Link.fill n q { l with rxTop := l.rxTop + 1, rxSeen := (l.rxTop + 1, c) :: l.rxSeen, rxCtr := modSlot l.rxCtr k (c + 1) }
/-- The distance of a SEQ past the last one filed; a replay's is not from 1 to 256. -/
def Link.ahead (l : Link) (q : BitVec 12) : Nat := (q - l.rxTop).toNat
/-- The counter of a sequenced flit whose CRC passes: its own from before for a replay, else the next of its slot. -/
def Link.counter (f : Flit) (l : Link) : Link × Nat :=
  let q := hdrSeq f.hdr
  if 1 ≤ l.ahead q ∧ l.ahead q ≤ 256 then
    let l := l.fill 256 q
    let k := hdrKs f.hdr
    let c := l.rxCtr[k.toNat]?.getD 0
    ({ l with rxTop := q, rxSeen := (q, c) :: l.rxSeen, rxCtr := modSlot l.rxCtr k (c + 1) }, c)
  else (l, ((l.rxSeen.find? fun x => x.1 == q).map (·.2)).getD 0)

/-- A sequenced flit, `h` the header that says which: accepted in SEQ order, else dropped; the first failure sends a NAK, three of one
SEQ retrain. Of the idle flits that fill a link's free slots, the model sends one for every 64 flits accepted, so that the other end's
retry buffer empties. (log 58, DESIGN CHOICE) -/
def receiveSeq (e : Nat) (h : W64) (f : Flit) (s : State) : State :=
  let good := f.crc == Flit.crcOf f.hdr f.body f.tag
  let (l, ctr) := if good then (s.li e).counter f else (s.li e, 0)
  let s := s.modLi e fun _ => l
  let ks := hdrKs h
  let seq := hdrSeq h
  let want := l.rxSeq + 1
  let nak (s : State) : State := sendFlit e { hdr := s.stamped e (mkHdr 5 0), body := 0 } s
  if l.waitSeq.isSome ∧ seq ≠ want then s
  else match l.opens e ctr f with
    | some b =>
      if seq = want then
        let s := s.modLi e fun l =>
          { l with rxSeq := seq, rxSeen := l.rxSeen.filter (·.1 != seq), waitSeq := none, fails := 0, rxLast := ks
                   rxKey := if ks = l.rxLast then l.rxKey else modSlot l.rxKey l.rxLast none
                   hold := hdrHold f.hdr }
        let s := accepted e { hdr := f.hdr, body := b } (ackFlits e (hdrAck f.hdr) s)
        if seq.toNat % 64 = 63 then sendIdle e s else s
      else if (want - seq).toNat ≤ 256 then s
      else nak (s.modLi e fun l => { l with waitSeq := some want })
    | none =>
      let s := s.modLi e fun l =>
        { l with waitSeq := some want, fails := l.fails + 1, authf := if good then sat16 l.authf 1 else l.authf }
      if 3 ≤ (s.li e).fails then goRetrain e s else nak s

/-- An unsequenced flit takes the next counter of its slot; its SEQ is the number that the next sequenced flit takes. -/
def Link.passes (good : Bool) (h : W64) (l : Link) : Link × Nat :=
  let q := hdrSeq h
  let l := if good && decide (l.ahead q ≤ 256) && decide (1 ≤ l.ahead q) then l.fill 256 q else l
  let ks := if good then hdrKs h else l.rxSlot
  let ctr := l.rxCtr[ks.toNat]?.getD 0
  ({ l with rxCtr := modSlot l.rxCtr ks (ctr + 1) }, ctr)

/-- An unsequenced flit, or one of a reserved type, which is dropped as one that fails. A timing flit is for the device that it names: a
switch routes it, and another device sends it back (R417); a leaf notes a heartbeat (R423). -/
def receiveUnseq (e : Nat) (f : Flit) (s : State) : State :=
  let (l, ctr) := (s.li e).passes (f.crc == Flit.crcOf f.hdr f.body f.tag) f.hdr
  let s := s.modLi e fun _ => l
  match (if 7 ≤ hdrType f.hdr then none else l.opens e ctr f) with
  | some b =>
    let s := ackFlits e (hdrAck f.hdr) (s.modLi e fun l => { l with unseqFails := 0, hold := hdrHold f.hdr })
    if hdrType f.hdr = 5 then nakFlits e (hdrAck f.hdr) s
    else if hdrType f.hdr = 4 then heartbeatIn e s
    else if hdrType f.hdr = 3 then
      let p : Plain := { hdr := f.hdr, body := b }
      if 32768 ≤ e then toSwitch e p s else if hdrDev f.hdr ≠ devOfBh e then sendBack e p s else s
    else s
  | none =>
    let s := s.modLi e fun l => { l with unseqFails := l.unseqFails + 1, authf := sat16 l.authf 1 }
    if 16 ≤ (s.li e).unseqFails then goRetrain e s else s

/-- Whether the input at a switch's end still has a flit, which waits for its slot. -/
def endBusy (e : Nat) (s : State) : Bool :=
  match endSwitch e with
  | some (w, p) => (s.swi w).inp.any fun x => x.1 == p
  | none => false

/-- A flit reaches an end of a link that is up: the oldest on its way from the other end, as it arrives. Where its CRC fails, its header
does not say what it is, and the place that it takes among the flits sent does (log 37, DEDUCED). One that a lane's failure has cut is
void: an unsequenced one has only used its counter (R425). -/
def receiveFlit (e : Nat) (f : Flit) (s : State) : State :=
  if (s.li e).up ≠ 2 ∨ endBusy e s then s
  else
    let p := s.li (peerEnd e)
    let h := if f.crc = Flit.crcOf f.hdr f.body f.tag then f.hdr else (p.out.head?.map (·.hdr)).getD f.hdr
    let s := s.modLi (peerEnd e) fun l => { l with out := l.out.drop 1, cut := l.cut - 1 }
    if sequenced h then receiveSeq e h f s
    else if 0 < p.cut then s.modLi e fun l => (l.passes true h).1
    else receiveUnseq e f s

/-- FLIT_RECEIVE. -/
def execFlitReceive (e : Nat) (f : Flit) (s : State) : Out := .next (receiveFlit e f s)

/-- MARKER_RECEIVED: a flit under the other slot is accepted in SEQ order, and the slot accepted until then is retired (R427). -/
def execMarkerReceived (e : Nat) (f : Flit) (s : State) : Out :=
  .next (if sequenced f.hdr && hdrKs f.hdr != (s.li e).rxLast then receiveFlit e f s else s)

/-! ### Heartbeats (R423) -/

/-- HEARTBEAT_SEND: a bulkhead out of reset sends a heartbeat on its port (R415). -/
def execHeartbeatSend (bh : Nat) (s : State) : Out :=
  .next (if (s.bu bh).reset then s
  else
    let s := s.modBu bh fun b => { b with hbCount := b.hbCount + 1 }
    sendFlit bh { hdr := s.stamped bh (mkHdr 4 0), body := mkBody [(0, 2, devOfBh bh), (2, 2, bh % 32), (4, 4, (s.bu bh).hbCount.toNat)] } s)

/-- HEARTBEAT_RECEIVE: a leaf notes the heartbeat, at a time. -/
def execHeartbeatReceive (w port ns : Nat) (s : State) : Out := .next (noteHeartbeat w port ns s)

/-! ### Switches (R417, R418, R420, R421) -/

/-- What eligible famo flits must have in common: output, PADDR, size, SPART and PRIV; none for another flit (R231, R420).
(log 9, PRESUMED) -/
def combineKey (w : Nat) (a : Arrival) : Option (Nat × Nat × Nat × Nat × Bool) :=
  let b := a.flit.body
  if hdrType a.flit.hdr = 1 ∧ hdrCmb a.flit.hdr ∧ mayCombine b (hdrDev a.flit.hdr) then
    some (wantPort w a.flit.hdr a.up, bodyAt b 0x10 8, auxSize b, bodyAt b 0x08 2, (bodyAt b 1 1).testBit 7)
  else none

/-- The issuer of a member, and whether a TXID comes before another, modulo 2^16. -/
def srcOf (a : Arrival) : Nat := bodyAt a.flit.body 4 4
def txidOf (a : Arrival) : Nat := bodyAt a.flit.body 0x0A 2
def txidLt (a b : Nat) : Bool := a != b && (b + 2 ^ 16 - a) % 2 ^ 16 < 2 ^ 15

/-- The order of members (R420): the places go by order of arrival and then by input port, and each issuer's members take its places
in ascending TXID. (log 58, DESIGN CHOICE) -/
def memberOrder (ms : List (Nat × Arrival)) : List Arrival :=
  ((ms.mergeSort fun a b => a.1 < b.1 || (a.1 == b.1 && a.2.inPort ≤ b.2.inPort)).foldl (fun (acc : List Arrival × List Arrival) a =>
    let own := acc.2.filter fun m => srcOf m == srcOf a.2
    let next := own.foldl (fun m x => if txidLt (txidOf x) (txidOf m) then x else m) (own.headD a.2)
    (acc.1 ++ [next], acc.2.erase next)) ([], ms.map (·.2))).1

/-- Whether stamp a is earlier than b, modulo 2^15. -/
def stampLt (a b : Nat) : Bool := a != b && (b + 2 ^ 15 - a) % 2 ^ 15 < 2 ^ 14

/-- A body with n bytes at an offset replaced. -/
def bodySet (b : BitVec 1792) (off n v : Nat) : BitVec 1792 :=
  BitVec.ofNat 1792 (b.toNat - bodyAt b off n * 2 ^ (8 * off) + v % 2 ^ (8 * n) * 2 ^ (8 * off))

/-- Combines members that meet at one output, and keeps their split record. -/
def combineGroup (w : Nat) (group : List (Nat × Arrival)) (s : State) : State × List Arrival :=
  let ms := memberOrder group
  match ms with
  | a :: _ :: _ =>
    if 1024 ≤ (s.swi w).splits.length then (s, ms)
    else
      let b := a.flit.body
      let n := auxSize b
      let sum := ms.foldl (fun t m => t + bodyAt m.flit.body 0x18 8) 0 % 2 ^ (8 * n)
      let cnt := ms.foldl (fun t m => t + auxCount m.flit.body) 0
      let age := ms.foldl (fun t m => max t (hdrAge m.flit.hdr)) 0
      let st := ms.foldl (fun t m => if stampLt (hdrStamp m.flit.hdr) t then hdrStamp m.flit.hdr else t) (hdrStamp a.flit.hdr)
      let body := bodySet (bodySet b 0x18 8 sum) 0x0C 4 (auxOp b + 16 * n + 2 ^ 16 * cnt)
      let r : Split := { id := (s.swi w).nextRec, size := n, pa := bodyAt b 0x10 8, port := wantPort w a.flit.hdr a.up
                         part := bodyAt b 0x08 2, priv := (bodyAt b 1 1).testBit 7
                         counts := ms.map fun m => auxCount m.flit.body, members := ms.map fun m =>
        (BitVec.ofNat 32 (srcOf m), BitVec.ofNat 16 (txidOf m), BitVec.ofNat 64 (bodyAt m.flit.body 0x18 8)) }
      (s.modSw w fun k => { k with nextRec := k.nextRec + 1, splits := k.splits ++ [r] },
        [{ a with flit := { a.flit with hdr := hdrAged a.flit.hdr age st, body := body } }])
  | _ => (s, ms)

/-- The famo flits that go on in a slot: each group, combined, once 8 slots have passed since its first came (R420); and what may still
meet others stays. (log 58, DESIGN CHOICE) -/
def combineDue (w : Nat) (s : State) : State × List Arrival :=
  let k := s.swi w
  let first (key : Option (Nat × Nat × Nat × Nat × Bool)) : Nat :=
    ((k.comb.filter fun e => combineKey w e.2 == key).map (·.1)).foldl min k.slot
  let due (e : Nat × Arrival) : Bool := first (combineKey w e.2) + 7 ≤ k.slot
  (((k.comb.filter due).map fun e => combineKey w e.2).eraseDups).foldl (fun (acc : State × List Arrival) key =>
    let (s, new) := combineGroup w (k.comb.filter fun e => combineKey w e.2 == key) acc.1
    (s, acc.2 ++ new)) (s.modSw w fun k => { k with comb := k.comb.filter fun e => !due e }, [])

/-! ### A slot -/

/-- Whether one contender of a slot is ranked before another: held flits first, by STAMP; then AGE, STAMP and input port. -/
def rankLe (a b : Bool × Arrival) : Bool :=
  let ha := a.2.flit.hdr
  let hb := b.2.flit.hdr
  if a.1 != b.1 then a.1
  else if !a.1 && hdrAge ha != hdrAge hb then hdrAge hb < hdrAge ha
  else if stampLt (hdrStamp ha) (hdrStamp hb) then true
  else if stampLt (hdrStamp hb) (hdrStamp ha) then false
  else a.2.inPort ≤ b.2.inPort

/-- A slot's outcome: flits by output, flits held by input, the losers still to be deflected, and what no output is free for. -/
structure SlotOut where
  outs : List (Nat × Plain) := []
  held : List (Nat × Arrival) := []
  lost : List Arrival := []
  stay : List Arrival := []

/-- Whether a flit may leave by an output: no other does, its link can take one, and one of AGE 255 finds HOLD clear (R418). -/
def SlotOut.free (w : Nat) (s : State) (age : Nat) (o : SlotOut) (p : Nat) : Bool :=
  let l := s.li (switchEnd w p)
  o.outs.all (fun e => e.1 != p) && l.up == 2 && decide (l.retry.length < 256) && l.backlog.isEmpty && !(age == 255 && l.hold)

/-- The outputs that a flit may take without a deflection, the one chosen for it first: a leaf chooses freely among its up ports (R417). -/
def outputsOf (w : Nat) (a : Arrival) : List Nat :=
  let p := wantPort w a.flit.hdr a.up
  if isLeaf w && 96 ≤ p then p :: (List.range 96).map (96 + ·) else [p]

/-- Places a contender: on an output that it may take, else a flit of AGE 255 in the hold register of its input, one flit per input,
else it has lost (R417, R418). -/
def placeOne (w : Nat) (s : State) (o : SlotOut) (c : Bool × Arrival) : SlotOut :=
  let age := hdrAge c.2.flit.hdr
  match (outputsOf w c.2).find? (o.free w s age) with
  | some p => { o with outs := o.outs ++ [(p, { hdr := c.2.flit.hdr, body := c.2.flit.body })] }
  | none =>
    if age ≠ 255 then { o with lost := o.lost ++ [c.2] }
    else if o.held.all fun h => h.1 != c.2.inPort then { o with held := o.held ++ [(c.2.inPort, c.2)] }
    else { o with stay := o.stay ++ [c.2] }

/-- Deflects a loser: at a leaf to a free up port, at a spine to a free port towards another leaf; with none it is not taken. -/
def deflectOne (w : Nat) (s : State) (o : SlotOut) (a : Arrival) : SlotOut :=
  let cand := if isLeaf w then (List.range 96).map (96 + ·) else (List.range 176).filter fun p => p / 16 != hdrDev a.flit.hdr / 96
  let age := min 255 (hdrAge a.flit.hdr + 64)
  match cand.find? (o.free w s age) with
  | some p => { o with outs := o.outs ++ [(p, { hdr := hdrAged a.flit.hdr age (hdrStamp a.flit.hdr), body := a.flit.body })] }
  | none => { o with stay := o.stay ++ [a] }
def deflectLost (w : Nat) (s : State) (o : SlotOut) : SlotOut := o.lost.foldl (deflectOne w s) { o with lost := [] }

/-- The port of a device on a leaf. -/
def fromDevice (w : Nat) (a : Arrival) : Bool := isLeaf w && a.inPort < 96

/-- Routes a slot's contenders: those of the first rank, then those within the fabric, and a flit from a device port where an output is
left for it (R422). -/
def routeRanks (w : Nat) (s : State) (first : Bool × Arrival → Bool) (cs : List (Bool × Arrival)) : SlotOut :=
  let late (c : Bool × Arrival) : Bool := !first c && !c.1 && fromDevice w c.2 && 96 ≤ wantPort w c.2.flit.hdr c.2.up
  let o := deflectLost w s ((cs.filter first).foldl (placeOne w s) {})
  let o := (cs.filter fun c => !first c && !late c).foldl (placeOne w s) o
  let o := (o.lost.filter fun a => !fromDevice w a).foldl (deflectOne w s) { o with lost := o.lost.filter (fromDevice w) }
  deflectLost w s ((cs.filter late).foldl (placeOne w s) (deflectLost w s o))
/-- Routes a slot: where a device port's flit would find no output for the 64th slot in a row, it goes before all but held flits and
those at AGE 255 (R418, R422). (log 58, DESIGN CHOICE) -/
def routeSlot (w : Nat) (s : State) (cs : List (Bool × Arrival)) : SlotOut :=
  let overdue (a : Arrival) : Bool := fromDevice w a && 63 ≤ Map.get 0 (s.swi w).refused a.inPort
  let o := routeRanks w s (fun _ => false) cs
  if o.stay.any overdue then routeRanks w s (fun c => c.1 || hdrAge c.2.flit.hdr == 255 || overdue c.2) cs else o

/-- The switch's own flits take the outputs that are left, in order; the others wait. (log 58, DESIGN CHOICE) -/
def placeOwn (w : Nat) (s : State) (o : SlotOut) (own : List (Option Nat × Plain)) : SlotOut × List (Option Nat × Plain) :=
  own.foldl (fun (acc : SlotOut × List (Option Nat × Plain)) c =>
    let ports := match c.1 with
      | some p => [p]
      | none => outputsOf w { inPort := 0, up := 0, flit := { hdr := c.2.hdr, body := c.2.body, tag := 0, crc := 0 } }
    match ports.find? (acc.1.free w s (hdrAge c.2.hdr)) with
    | some p => ({ acc.1 with outs := acc.1.outs ++ [(p, c.2)] }, acc.2)
    | none => (acc.1, acc.2 ++ [c])) (o, [])

/-- The flits of a slot leave, each sealed on its link, with HOLD for the register of that port's input; where HOLD changes and no flit
leaves, an idle flit says so (R418, R426). -/
def sendSlot (w : Nat) (before : List Nat) (o : SlotOut) (s : State) : State :=
  let s := o.outs.foldl (fun s e => sendFlit (switchEnd w e.1) e.2 s) s
  ((before ++ o.held.map (·.1)).eraseDups.filter fun p => o.outs.all fun e => e.1 != p).foldl
    (fun s p => sendIdle (switchEnd w p) s) s

/-- An arrival as the flit that waited. -/
def plainOf (a : Arrival) : Nat × Plain := (a.inPort, { hdr := a.flit.hdr, body := a.flit.body })
/-- The port that a combined flit leaves by, in its record (R421). -/
def markPorts (o : SlotOut) (l : List Split) : List Split :=
  l.map fun r =>
    match o.outs.find? fun e => hdrType e.2.hdr == 1 && bodyAt e.2.body 0 1 == 6 && bodyAt e.2.body 0x10 8 == r.pa &&
        auxCount e.2.body == r.counts.foldl (· + ·) 0 &&
        (r.members.head?.map fun m => (m.1.toNat, m.2.1.toNat)) == some (bodyAt e.2.body 4 4, bodyAt e.2.body 0x0A 2) with
    | some e => { r with port := e.1 }
    | none => r
/-- The record whose reply an arrival is. -/
def repliesTo (k : Switch) (a : Arrival) : Option Split :=
  if hdrType a.flit.hdr = 1 ∧ repliesKind a.flit.body then
    k.splits.find? fun r => r.pa == bodyAt a.flit.body 0x10 8 && (r.members.head?.map fun m => (m.1.toNat, m.2.1.toNat)) == some (srcOf a, txidOf a)
  else none

/-- SWITCH_FLIT_ROUTE: one slot of a switch, with the flits that arrive in it. A notice goes on as the switch's own flits, a reply to a
combined flit is split (R421), a famo that may be combined waits for others (R420), and the rest contend. (log 58, DESIGN CHOICE) -/
def execSwitchFlitRoute (w : Nat) (arr : List Arrival) (s : State) : Out :=
  .next (if (s.swi w).failed then s
  else
    let k := s.swi w
    let s := (arr.filter fun a => hdrType a.flit.hdr == 6).foldl (fun s a => sendOwn w (noticePorts w s) (plainOf a).2 s) s
    let s := arr.foldl (fun s a => match repliesTo k a with
      | some r => splitRec w r.id (bodyAt a.flit.body 0x18 8) (if bodyAt a.flit.body 0 1 = 0x10 then bodyAt a.flit.body 0x0C 4 else 0)
          (hdrAge a.flit.hdr) (hdrStamp a.flit.hdr) s
      | none => s) s
    let go := arr.filter fun a => (hdrType a.flit.hdr == 1 || hdrType a.flit.hdr == 3) && (repliesTo k a).isNone
    let room := 1024 - (k.splits.length + k.own.length + k.comb.length)
    let wait := (go.filter fun a => (combineKey w a).isSome).take room
    let s := s.modSw w fun k => { k with comb := k.comb ++ wait.map fun a => (k.slot, a) }
    let (s, new) := combineDue w s
    let cs := (k.hold.map (fun h => (true, h.2)) ++ (new ++ go.filter fun a => !wait.contains a).map fun a => (false, a)).mergeSort rankLe
    let o := routeSlot w s cs
    let (o, own) := placeOwn w s o (s.swi w).own
    let taken := arr.filter fun a => !o.stay.contains a
    let s := s.modSw w fun k =>
      { k with hold := o.held, splits := markPorts o k.splits
               own := own ++ (o.stay.filter fun a => !arr.contains a).map fun a => (none, (plainOf a).2), slot := k.slot + 1
               inp := taken.foldl (fun l a => l.erase (plainOf a)) k.inp ++
                 ((o.stay.filter fun a => arr.contains a && !k.inp.contains (plainOf a)).map plainOf)
               refused := (arr.filter (fromDevice w)).foldl (fun m a =>
                 Map.set m a.inPort (if o.stay.contains a then Map.get 0 m a.inPort + 1 else 0)) k.refused }
    sendSlot w (k.hold.map (·.1)) o s)

/-- COMBINED_REPLY_SPLIT: the reply is one that the target's device injects now. -/
def execCombinedReplySplit (w id : Nat) (m : W64) (err : BitVec 5) (s : State) : Out :=
  .next (if (s.swi w).failed then s
  else
    let t := (((s.swi w).splits.find? fun r => r.id == id).map fun r => s.ns (bhOfPa r.pa) % 2 ^ 15).getD 0
    splitRec w id m.toNat err.toNat 0 t s)

/-- HEARTBEAT_TIMEOUT: after 10 us the leaf declares the device down, and the records that wait for it fail (R421, R423); a device on a
leaf that has failed is declared down as well (R430). -/
def execHeartbeatTimeout (w port ns : Nat) (s : State) : Out :=
  .next (let k := s.swi w
         if !isLeaf w ∨ downPorts w ≤ port ∨ k.downDev.contains port ∨ ns < Map.get 0 k.hbLast port + 10000 then s
         else
           let s := s.modSw w fun k => { k with downDev := port :: k.downDev }
           let s := ((s.swi w).splits.filter fun r => r.port == port).foldl (fun s r => splitRec w r.id 0 6 0 0 s) s
           sendNotice w (leafDev w port) false s)

/-- SWITCH_FAILURE: its links go down and the flits it held are lost (R430). -/
def execSwitchFailure (w : Nat) (s : State) : Out :=
  .next (let s := s.modSw w fun k => { k with failed := true, hold := [], splits := [], inp := [], own := [], comb := [] }
         (portsOf w).foldl (fun s p =>
           let e := switchEnd w p
           let down (l : Link) : Link := { l with up := 0, out := [], cut := 0 }
           portFails (peerEnd e) ((s.modLi e down).modLi (peerEnd e) down)) s)

/-! ### Packets on their way -/

/-- Sends a packet. -/
def Packet.send (k : Packet) (txid : Nat) (s : State) : State :=
  let p := k.plain txid
  sendFlit k.port { p with hdr := s.stamped k.port p.hdr } s
/-- Sends a packet that goes to another device, one that answers to no TXID. -/
def sendOver (k : Option Packet) (s : State) : State :=
  match k with
  | some k => k.send 0 s
  | none => s
/-- The next TXID of a packet's source agent towards its target bulkhead. -/
def nextTxid (k : Packet) (s : State) : State × Nat :=
  let key := k.src * 2 ^ 15 + (k.dev * 32 + k.port % 32)
  let n := Map.get 0 s.txid key
  ({ s with txid := Map.set s.txid key ((n + 1) % 2 ^ 16) }, n)
/-- Sends requests of work in flight, each under the next TXID. -/
def askOut (id : Nat) (ks : List Packet) (s : State) : State :=
  let r := ks.foldl (fun (acc : State × List (Nat × Nat)) k =>
    let (s, n) := nextTxid k acc.1
    (k.send n s, acc.2 ++ [wireKey k.src (k.dev * 32 + k.port % 32) n])) (s, [])
  { r.1 with wire := Map.set r.1.wire id { asks := r.2, due := r.2 } }
/-- Sends the replies of work in flight, each under the TXID of its request; a switch sends those to what it combined (R421). -/
def answerOut (id : Nat) (rs : List (Option Packet)) (s : State) : State :=
  let w := Map.get {} s.wire id
  let l := (rs.zip w.asks).filterMap fun e => e.1.map fun k => (k, e.2.2)
  let s := if w.split then s else l.foldl (fun s e => e.1.send e.2 s) s
  { s with wire := Map.set s.wire id { w with due := l.map (fun e => wireKey e.1.src (devOfBh (bhOfPa e.1.pa) * 32 + e.1.port % 32) e.2)
                                              back := true } }

/-- What a step has put on the fabric of one piece of work: its requests, once it is new or a Weevil forwards it, or the replies once the
targets have acted, and a link write's acknowledgement. (log 36, DESIGN CHOICE) -/
def flightOut (s0 s : State) (e : Nat × Flight) : State :=
  let f0 := s0.fl? e.1
  if f0 = some e.2 then s
  else match e.2.answers s with
    | some rs =>
      if (f0.bind (·.answers s0)).isSome then s
      else
        let s := match e.2 with
          | .weevil q => sendOver (q.linkAck s) s
          | _ => s
        if (Map.get ({} : Wire) s.wire e.1).asks.isEmpty then s else answerOut e.1 rs s
    | none =>
      let asks := (e.2.asks s).filterMap id
      if asks.isEmpty ∨ (f0.map fun f => (f.asks s0).filterMap id |>.map fun k => (k.kind, k.pa)) = some (asks.map fun k => (k.kind, k.pa))
      then s else askOut e.1 asks s
/-- Sends the packets of the accesses that have crossed within the step; nothing waits for them. (log 36, DESIGN CHOICE) -/
def crossedOut (s : State) : State :=
  s.crossed.foldl (fun s x => (x.packets s).foldl (fun s q =>
    let (s, n) := nextTxid q.1 s
    let s := q.1.send n s
    match q.2 with
    | some a => a.send n s
    | none => s) s) { s with crossed := [] }
/-- The spare requests and grants that a step has made between devices (R344). -/
def sparesOut (s0 s : State) : State :=
  s.reac.foldl (fun s e => (List.range e.2.conns.length).foldl (fun s i =>
    match (s0.re e.1).conns[i]?, e.2.conns[i]? with
    | some c0, some c =>
      let t := bhOfReac (liveKey s 8 c.target)
      let u := e.2.core * 4
      let s := if c.asked && !c0.asked then
          sendOver (Packet.ask s (bhOf u) u 0 t false { kind := 0x0D, aux := i, opnd := c.target }) s else s
      if c.granted && !c0.granted then
        sendOver (Packet.ask s t (t * 4096) 0 (bhOfReac e.1) false { kind := 0x0E, aux := i, opnd := e.1 }) s else s
    | _, _ => s) s) s
/-- What a step has put on the fabric. What is over is no longer awaited. (log 36, DESIGN CHOICE) -/
def wireOut (s0 s : State) : State :=
  let s := sparesOut s0 (crossedOut (s.flight.foldl (flightOut s0) s))
  { s with wire := s.wire.filter fun e => (s.fl? e.1).isSome }

/-- Whether work in flight waits for a packet on the fabric. -/
def State.onWire (s : State) (id : Nat) : Bool := !(Map.get {} s.wire id).due.isEmpty

end Sys2Proof.Machine
end

