-- ==== Sys2Proof/Machine/Message.lean ====
section
/-! DEFINITION. Message.lean: send and sendr (R241 to R243), tnow and tcur (R244, R408, R409), larm, lpatch and lstat (R245)
and bar (R246, R358, R359). -/

namespace Sys2Proof.Machine

/-! ### send and sendr -/

/-- The events of one send: each connection's index with its tag, or the trap of R127. -/
def sendTags (tag : W64 × W32) (cs : List (Conn × Nat)) : Except Nat (List (Nat × (W64 × W32))) :=
  cs.foldl (fun acc c => match acc with
    | .error e => .error e
    | .ok l => match sendTag tag c.1.after with
      | .error e => .error e
      | .ok t => .ok (l ++ [(c.2, t)])) (.ok [])

/-- Puts events on connections: held in the commit window of a restartable activation, else leaving at once when R107
is met and the send queue has room (R243). (log 105, DESIGN CHOICE) -/
def post (len : Nat) (cs : List (Conn × Nat)) (payload : W64) (s : State) : State :=
  let u := s.cur
  let a := s.act u
  match sendTags a.q.tag cs with
  | .error v => trap 0x09 (BitVec.ofNat 64 v) s
  | .ok ts =>
    let ms := ts.map fun t =>
      ({ reactor := a.reactor, conn := t.1, tagt := t.2.1, tagm := t.2.2, sender := BitVec.ofNat 32 u,
         payload := payload } : Msg)
    if a.restartable && s.me.act.isSome then
      if windowFits a [] ms.length then advance len (s.modAct u fun a => { a with msgs := a.msgs ++ ms })
      else waits 11 (startDrain false s)
    else if !ms.isEmpty && !allAcked s u then waits 12 s
    else if !sendRoom s (coreOf u) ms.length then waits 11 s
    else advance len (ms.foldl (fun s m => leave m s) s)

/-- send: one event on every valid connection of the port that d names (R241). -/
def execSend (g : Guard) (x : XM) (s : State) : Out :=
  scalarI g (memLen x) (fun s =>
    let w0 := ext x.ty.toNat (readSlices s.me.r.scalar (rngOf x.a)) (4 * x.a.width) 32 % 2 ^ 32
    let w1 := if x.d.start.getLsbD 4 then ext x.ty.toNat (readZ x.b x.lit s) (4 * (extSrc x.b x.lit).width) 32 % 2 ^ 32
      else 0
    let port := (x.d.start.extractLsb' 0 4).toNat
    post (memLen x) ((s.re (s.act s.cur).reactor).conns.zipIdx.filter fun c => c.1.valid && c.1.oport == port)
      (BitVec.ofNat 64 (w0 + w1 * 2 ^ 32)) s) s

/-- sendr: one event on the connection whose index a holds (R242). -/
def execSendr (g : Guard) (x : XM) (s : State) : Out :=
  scalarI g (memLen x) (fun s =>
    let i := readSlices s.me.r.scalar (rngOf x.a)
    let v := ext x.ty.toNat (readZ x.b x.lit s) (4 * (extSrc x.b x.lit).width) 64
    match (s.re (s.act s.cur).reactor).conns[i]? with
    | some c => if c.valid then post (memLen x) [(c, i)] (BitVec.ofNat 64 v) s else trap 0x0A (BitVec.ofNat 64 i) s
    | none => trap 0x0A (BitVec.ofNat 64 i) s) s

/-! ### tnow and tcur -/

/-- Physical address and number of the records of a bulkhead's replay feed (Table 21-11). -/
def feedBase (s : State) (bh : Nat) : Nat := hbmAddr bh (((s.bu bh).rpctl.extractLsb' 16 20).toNat * 65536)
def feedCap (s : State) (bh : Nat) : Nat := 1024 * 2 ^ ((s.bu bh).rpctl.extractLsb' 57 4).toNat
/-- Record i of the feed as a number of 512 bits. -/
def feedRec (s : State) (bh i : Nat) : Nat := s.rawNat (feedBase s bh + 64 * i) 64
def feedKind (r : Nat) : Nat := rb r 0x0C 4 / 2 ^ 27

/-- The recorded reading of a tnow: the same tag, reactor and index, of the highest attempt recorded; a reactor that has moved in the
replay is still the one that it was (R409). (log 96, DEDUCED) -/
def feedTnow (s : State) (u : Nat) : Option Nat :=
  let a := s.act u
  let bh := bhOf u
  let keys := a.reactor :: (s.re a.reactor).names
  let mine := ((List.range (feedCap s bh)).map (feedRec s bh)).filter fun r =>
    feedKind r == 6 && rb r 0 8 == a.q.tagt.toNat && rb r 8 4 == a.q.tagm.toNat &&
      keys.any fun k => rb r 0x10 3 % 65536 == ridOf k && cluOf (rb r 0x0C 4 % 2 ^ 27) == cluOfReac k
  let top := (mine.map fun r => rb r 0x3C 1).foldl max 0
  (mine.find? fun r => rb r 0x3C 1 == top && rb r 0x3E 2 == a.tnows % 65536).map fun r => rb r 0x20 8

/-- The value tnow reads (R244, R409), with the divergence that replay notes. (log 34, DEDUCED) -/
def readNow (s : State) : State × Nat :=
  let u := s.cur
  let bh := bhOf u
  let a := s.act u
  if rpMode (s.bu bh) = 2 then
    match feedTnow s u with
    | some v => (s, v)
    | none =>
      (logTo bh { tagt := a.q.tagt, tagm := a.q.tagm, cause := 22, peer := BitVec.ofNat 32 u }
        (s.modBu bh fun b => { b with rpctl := b.rpctl ||| (1#64 <<< 61) }), s.ticks bh)
  else (s, s.ticks bh)

/-- tnow: local time in ticks; in record mode the reading is recorded first, and waits while it cannot be (R408). -/
def execTnow (g : Guard) (x : XM) (s : State) : Out :=
  scalarI g (memLen x) (fun s =>
    let u := s.cur
    let bh := bhOf u
    if rpMode (s.bu bh) = 1 && traceFull (s.bu bh) then s
    else
      let (s, v) := readNow s
      let a := s.act u
      let s := if rpMode (s.bu bh) = 1 then
          let rec6 : Rec :=
           { kind := 6, tagt := a.q.tagt.toNat, tagm := a.q.tagm.toNat, coord := u, route := a.q.route.toNat, tarr := v,
             outcome := min a.attempt 255 }
          traceWrite bh rec6.bytes (some (a.tnows % 65536)) s
        else s
      advance (memLen x) (putMe x.d v (s.modAct u fun a => { a with tnows := a.tnows + 1 }))) s

/-- tcur: the tag time of the activation. -/
def execTcur (g : Guard) (x : XM) (s : State) : Out :=
  scalarI g (memLen x) (fun s => advance (memLen x) (putMe x.d (s.act s.cur).q.tagt.toNat s)) s

/-! ### Launch records -/

/-- Whether arming a record waits: a bank that it is to rewrite is still used by a command of its core issued before (R47). -/
def armWaits (s : State) (bh rec : Nat) : Bool := (armPlans s bh rec).any fun p => banksBusy s p.core (p.rewrites s)

/-- Whether the release of an instance waits in the same way for the banks that it gives back. (log 69, DESIGN CHOICE) -/
def releaseWaits (s : State) (r : Nat) : Bool :=
  banksBusy s (s.re r).core ((soleBanks s [r] r).filter fun b => (s.bfmt (s.re r).core b).extractLsb' 0 11 != 0)

/-- larm with a [15] = 0 arms; the tag of its start events is judged before the commit (R245), and they are a release of every access
before it (R107, R114). (log 6, PRESUMED) -/
def armBy (x : XM) (rec : Nat) (s : State) : State :=
  let tag := (s.act s.cur).q.tag
  if tag.2.toNat = 2 ^ 32 - 1 then trap 0x09 0 s
  else committed (fun s =>
    if !allAcked s s.cur then waits 12 s
    else if armWaits s (bhOf s.cur) rec then waits 0 s
    else
      let (s, st, gang) :=
        arm (bhOf s.cur) rec (tag.1, tag.2 + 1) (BitVec.ofNat 32 s.cur) (some (s.act s.cur).reactor) false s
      advance (memLen x) (putMe x.d (st + if st = 0 then gang * 4096 else 0) s)) s

/-- larm with a [15] = 1 disarms: its thread set stalls until the release, DISARM_RELEASE, writes d (R138). -/
def disarmBy (x : XM) (rec gang : Nat) (s : State) : State :=
  committed (fun s =>
    let part := s.partOf (bhOf s.cur)
    let give (st : Nat) (s : State) : State := advance (memLen x) (putMe x.d st s)
    if (recordPa s (bhOf s.cur) rec).isNone then give 1 s
    else match gangLive s part gang rec with
      | none => give 9 s
      | some g =>
        if g.keys.contains (s.act s.cur).reactor then give 10 s
        else
          let s := disarm part gang rec (some s.cur) none s
          give 0 (s.modMe fun t => { t with mode := .stalled (s.nextId - 1) })) s

def execLarm (g : Guard) (x : XM) (s : State) : Out :=
  scalarI g (memLen x) (fun s =>
    let a := readSlices s.me.r.scalar (rngOf x.a)
    if a.testBit 15 then disarmBy x (a % 4096) (fld a 35 16) s else armBy x (a % 4096) s) s

def execLpatch (g : Guard) (x : XM) (s : State) : Out :=
  scalarI g (memLen x) (committed fun s =>
    let a := readSlices s.me.r.scalar (rngOf x.a)
    let (s, st) := patchRecord (bhOf s.cur) (a % 4096) (fld a 14 12) (BitVec.ofNat 64
      (ext x.ty.toNat (readZ x.b x.lit s) (4 * (extSrc x.b x.lit).width) 64)) s
    -- a write that the activation causes (R384)
    let s := match recordPa s (bhOf s.cur) (a % 4096) with
      | some pa => addRange s.cur (pa + 0xC0 + 8 * fld a 14 12) 8 s
      | none => s
    advance (memLen x) (putMe x.d st s)) s

def execLstat (g : Guard) (x : XM) (s : State) : Out :=
  scalarI g (memLen x) (fun s =>
    let a := readSlices s.me.r.scalar (rngOf x.a)
    advance (memLen x) (putMe x.d (recordStat s (bhOf s.cur) (a % 4096)) s)) s

/-- DISARM_RELEASE: once nothing of the gang is in progress, its instances are released; the larm or ARMCTL that waits
gets status 0 (R138 step 3). (log 69, DESIGN CHOICE) -/
def execDisarmRelease (id : Nat) (s : State) : Out :=
  .next (match s.fl? id with
  | some (.disarm part gang rec ts port) =>
    let g := gangGoing s part gang rec
    let rs := (g.map (·.keys)).getD []
    if rs.any (instanceBusy s) || rs.any (releaseWaits s) then s
    else
      let s := (rs.foldl (fun s r => releaseInstance r s) s).endFl id
      let s := s.modPt part fun p => { p with gangs := g.elim p.gangs p.gangs.erase }
      let s := match ts with
        | some u => if (s.th u).mode = .stalled id then s.modTh u fun t => { t with mode := .run } else s
        | none => s
      match port with
      | some p => s.modPo p fun q => { q with armBusy := false, armStatus := 0 }
      | none => s
  | _ => s)

/-! ### Barriers -/

/-- bar: an arrival, once the thread set's earlier loads and stores have been performed (R109); the last arrival releases
the episode, the count reloads, and each participant retires (R246, R358). (log 29, DEDUCED) -/
def execBar (g : Guard) (x : XM) (s : State) : Out :=
  scalarI g (memLen x) (fun s =>
    let i := readZ x.b x.lit s
    let b := Map.get {} (s.cl (cluOf s.cur)).bars i
    match s.me.bar with
    | some (j, epi) =>
      if (Map.get {} (s.cl (cluOf s.cur)).bars j).epi.toNat = epi then waits 13 s
      else advance (memLen x) (s.modMe fun t => { t with bar := none })
    | none =>
      if 15 < i ∨ b.count = 0 then trap 0x0B (BitVec.ofNat 64 i) s
      else if s.loading s.cur || storesOut s s.cur then waits 13 s
      else if b.arr + 1 < b.count then
        (s.modCl (cluOf s.cur) fun c => { c with bars := Map.set c.bars i { b with arr := b.arr + 1 } }).modMe
          fun t => { t with bar := some (i, b.epi.toNat) }
      else advance (memLen x)
        (s.modCl (cluOf s.cur) fun c => { c with bars := Map.set c.bars i { b with arr := 0, epi := b.epi + 1 } })) s

end Sys2Proof.Machine
end

