-- ==== Sys2Proof/Machine/Host.lean ====
section
/-! DEFINITION. Host.lean: the host ports: views (R432), HSEM (R433), links, mailboxes (R141, R434), ARMCTL (R437), external
inputs recorded and replayed (R408, R409), and attestation (R441). -/

namespace Sys2Proof.Machine

/-! ### Views and HSEM -/

/-- The code of a port in HSEM.OWNER (Table 23-3). -/
def portCode (p : Nat) : BitVec 2 := if p % 2 = 0 then 1 else 2
/-- Whether a port holds HSEM: its accesses use the privileged view. -/
def holder (s : State) (p : Nat) : Bool := (s.de (p / 2)).owner == portCode p
/-- MSTAT.VE of a port: a write was ignored under a view rule. -/
def viewRule (p : Nat) (s : State) : State := s.modPo p fun q => { q with ve := true }

/-- A management write of a port to a bulkhead of its device: unserved before boot is done, ignored with VE in the
unprivileged view (R432, R439). -/
def managed (p bh : Nat) (body : State → State) (s : State) : State :=
  if !portOpen s p ∨ devOfBh bh ≠ p / 2 ∨ 24 ≤ bh % 32 then s
  else if holder s p then body s else viewRule p s

/-- A port takes HSEM. -/
def takeHsem (p : Nat) (s : State) : State :=
  s.modDe (p / 2) fun d => { d with owner := portCode p, last := p % 2 = 1, gen := d.gen + 1 }
/-- HSEM is free again if a port holds it. -/
def dropHsem (p : Nat) (s : State) : State :=
  if holder s p then s.modDe (p / 2) fun d => { d with owner := 0 } else s

/-- HSEM_ACQUIRE: a port writes its own code; `both`: the other port writes its own in the same cycle, and the port other
than LAST wins (R433). (log 58, DESIGN CHOICE) -/
def execHsemAcquire (p : Nat) (both : Bool) (s : State) : Out :=
  .next (if !(s.po p).up then s
  else
    let other := p / 2 * 2 + (1 - p % 2)
    let two := both && (s.po other).up
    let d := s.de (p / 2)
    if d.owner ≠ 0 then (if two then viewRule other (viewRule p s) else viewRule p s)
    else if !two then takeHsem p s
    else
      let win := if d.last then p / 2 * 2 else p / 2 * 2 + 1
      viewRule (p / 2 * 2 + (1 - win % 2)) (takeHsem win s))

/-- HSEM_RELEASE: the owner writes 0b00. -/
def execHsemRelease (p : Nat) (s : State) : Out :=
  .next (if !(s.po p).up then s else if holder s p then dropHsem p s else viewRule p s)

/-- A host link goes down: what the port waits for is lost, and HSEM is free if the port held it. -/
def linkDown (p : Nat) (s : State) : State :=
  let s := (dropHsem p s).modPo p fun q => { q with up := false }
  { s with flight := s.flight.filter fun e => match e.2 with
    | .hostRead q .. => q != p
    | _ => true }
def execHostLinkDown (p : Nat) (s : State) : Out := .next (linkDown p s)

/-- HOST_LINK_UP: the link trains again, unless its anchor is in reset or the module is off (R394, R433). -/
def execHostLinkUp (p : Nat) (s : State) : Out :=
  .next (if (s.de (p / 2)).powered ∧ !(s.bu (anchorOf p)).reset then s.modPo p fun q => { q with up := true } else s)

/-! ### External inputs -/

/-- The next stamp of a device's ingress for a partition's T + H (R141). -/
def stampOf (s : State) (dev bh : Nat) : State × W64 × W32 :=
  let t := s.ticks bh + s.boundH bh
  let k := Map.get 0 (s.de dev).stamps t
  (s.modDe dev fun d => { d with stamps := Map.set d.stamps t (k + 1) }, BitVec.ofNat 64 t, BitVec.ofNat 32 k)

/-- A KIND 5 record's bytes (Table 21-4). (log 34, DEDUCED) -/
def inputRec (s : State) (core : Nat) (q : QEntry) : Rec :=
  { kind := 5, tagt := q.tagt.toNat, tagm := q.tagm.toNat, coord := core * 4, route := q.route.toNat, flags := q.flags.toNat,
    sender := q.sender.toNat, entry := q.host.toNat, tarr := q.payload.toNat, tdisp := s.ns (bhOfCore core) }

/-- Whether a bulkhead's trace unit can write n more records. (log 41, DEDUCED) -/
def traceRoom (s : State) (bh n : Nat) : Bool :=
  let b := s.bu bh
  b.trctl.getLsbD 62 || (!traceFull b && (b.trwp.extractLsb' 0 32).toNat % trCap b.trctl + n ≤ trCap b.trctl)

/-- The HOSTRX reactor that serves a core: the one there, or one that has left it, by its forwarding entry or as the ingress knows it
from a rewrite notice (R375). (log 40, DEDUCED) -/
def hostrxOf (s : State) (core : Nat) : Option Nat :=
  let serves (k : Nat) : Bool := s.hasRe k && (s.re k).hostrx && !(s.re k).disarming
  match s.reac.find? fun e => e.2.core == core && e.2.hostrx && !e.2.disarming with
  | some e => some e.1
  | none =>
    match ((s.cl (cluOfCore core)).fwd.filter fun e => e.2.ocore == core % 256).findSome? fun e =>
        (let k := liveKey s 8 (reacKey (cluOf e.2.ncoord) e.2.nrid)
         if serves k then some k else none) with
    | some k => some k
    | none => ((s.de (devOfBh (bhOfCore core))).moved.find? fun m => m.1 == core && serves m.2).map (·.2)

/-- The entry of a HOSTRX reactor that a host message takes: the ingress's own, else a spare (R343, R344). -/
def ingressEntry (r : Nat) (s : State) : Option (State × Owner) :=
  let x := s.re r
  if 0 < x.ingressFree then some (s.modRe r fun x => { x with ingressFree := x.ingressFree - 1 }, .ingress)
  else if 0 < x.spares then some (s.modRe r fun x => { x with spares := x.spares - 1 }, .spare)
  else none

/-! ### Mailboxes -/

/-- What a GO takes of a port's registers (R434). -/
def Port.mail (q : Port) : HostMail := { target := q.target, entry := q.entry, args := q.args, msg3 := q.msg3, mask := q.hwmask }

/-- The status that refuses a message of a port, 0 where it may be queued (Table 23-4). (log 40, DEDUCED) -/
def mailVerdict (s : State) (p : Nat) (q : HostMail) : Nat :=
  let u := q.target.toNat
  let bh := bhOf u
  let k := s.co (coreOf u)
  if 2 ^ 27 ≤ u ∨ u % 4 ≠ 0 ∨ q.msg3 ≠ 0 ∨ q.entry.extractLsb' 0 2 ≠ 0 then 5
  else if devOf u ≠ p / 2 ∨ !q.mask.getLsbD (bh % 32) ∨ (s.partOf? bh).isNone ∨ !s.running bh then 3
  else if rpMode (s.bu bh) = 2 then 4
  else if k.isSealed || k.killed || k.retired then 6
  else match hostrxOf s (coreOf u) with
    | none => 1
    | some r => if (ingressEntry r s).isNone then 2 else 0
/-- The same for the message that a port's registers hold. (log 40, DEDUCED) -/
def mailStatus (s : State) (p : Nat) : Nat := mailVerdict s p (s.po p).mail

/-- STATUS is written and BUSY falls. -/
def mailEnds (p st : Nat) (s : State) : State := s.modPo p fun q => { q with mbxBusy := false, mbxStatus := BitVec.ofNat 4 st }

/-- HOST_MESSAGE_STAMP and the queueing of a port's message; while its record cannot be written ingress holds it. (log 40, DEDUCED) -/
def sendMail (p : Nat) (q : HostMail) (s : State) : State :=
  let u := q.target.toNat
  let bh := bhOf u
  match mailVerdict s p q with
  | 0 =>
    (match hostrxOf s (coreOf u) with
     | none => mailEnds p 1 s
     | some r =>
       if rpMode (s.bu bh) = 1 ∧ !traceRoom s bh 1 then s.emit (.ingress p (.mail q))
       else match ingressEntry r s with
         | none => mailEnds p 2 s
         | some (s, o) =>
           let (s, t, k) := stampOf s (p / 2) bh
           let e : QEntry :=
            { tagt := t, tagm := k, sender := BitVec.ofNat 32 hostUnit, route := BitVec.ofNat 24 (ridOf r + 0x30 * 65536),
              flags := 8, sendt := BitVec.ofNat 32 (s.ns bh), payload := q.args, host := q.entry }
           let s := if rpMode (s.bu bh) = 1 then traceWrite bh (inputRec s (coreOf u) e).bytes none s else s
           mailEnds p 0 (arrive 8 r e o s))
  | st => mailEnds p st s

/-- A GO of a port's mailbox, written through port `by_`: ignored with VE while the mailbox is busy. -/
def mailGo (by_ p : Nat) (s : State) : State :=
  if !portOpen s by_ then s
  else if (s.po p).mbxBusy then viewRule by_ s
  else sendMail p (s.po p).mail (s.modPo p fun q => { q with mbxBusy := true })
/-- MAILBOX_GO. -/
def execMailboxGo (p : Nat) (s : State) : Out := .next (mailGo p p s)

/-! ### ARMCTL (Table 23-12) -/

/-- The fields that a write of ARMCTL sets. -/
def armFields (v : W64) (q : Port) : Port :=
  { q with armPart := v.extractLsb' 43 15, armGang := v.extractLsb' 23 20, armDis := v.getLsbD 22, armRec := v.extractLsb' 0 12 }
def armEnds (p st : Nat) (s : State) : State := s.modPo p fun q => { q with armBusy := false, armStatus := BitVec.ofNat 4 st }

/-- How many start events arming a record gives. -/
def startsOf (s : State) (bh rec : Nat) : Nat :=
  ((recordPa s bh rec).map fun pa => match (readRecord s bh pa).2 with
    | .ok (r, _) => r.cores.length
    | .error _ => 0).getD 0
/-- Whether an arming by a port waits: in record mode for room for its start events' records (R408), and for the commands that
still use a bank which it is to rewrite (R47). -/
def armHeld (s : State) (bh rec : Nat) : Bool :=
  (rpMode (s.bu bh) == 1 && !traceRoom s bh (startsOf s bh rec)) || armWaits s bh rec

/-- Arms the record that a port's ARMCTL names, its start events stamped as given, and in record mode recorded; ingress holds
the request while it has to wait. -/
def armNow (p bh : Nat) (v : W64) (t : W64 × W32) (s : State) : State :=
  let rec_ := (v.extractLsb' 0 12).toNat
  let mode := rpMode (s.bu bh)
  if armHeld s bh rec_ then s.emit (.ingress p (.arm v t.1 t.2))
  else
    let (s, st, gang) := arm bh rec_ t (BitVec.ofNat 32 hostUnit) none (mode == 2) s
    let part := s.partOf bh
    let keys := if st = 0 then ((gangLive s part gang rec_).map (·.keys)).getD [] else []
    let s := if mode = 1 then keys.foldl (fun s k => traceWrite bh
        (inputRec s (s.re k).core (startEntry s k (s.re k).inst gang t (BitVec.ofNat 32 hostUnit) bh)).bytes none s) s
      else s
    (armEnds p st s).modPo p fun q => if st = 0 then { q with armGang := BitVec.ofNat 20 gang } else q

/-- A GO of a port's ARMCTL, written through port `by_`: accepted in the privileged view while the port is not busy. -/
def armGo (by_ p : Nat) (v : W64) (body : Nat → State → State) (s : State) : State :=
  if !portOpen s by_ then s
  else if !holder s by_ || (s.po p).armBusy then viewRule by_ s
  else
    let s := s.modPo p fun q => { armFields v q with armBusy := true }
    match bhsOf s (p / 2) (v.extractLsb' 43 15).toNat with
    | [] => armEnds p 2 s
    | bh :: _ => body bh s

/-- ARMCTL_ARM. -/
def armctlArm (by_ p : Nat) (v : W64) (s : State) : State :=
  armGo by_ p v (fun bh s =>
    let (s, t) := stampOf s (p / 2) bh
    armNow p bh v t s) s
def execArmctlArm (p : Nat) (v : W64) (s : State) : Out := .next (armctlArm p p v s)

/-- ARMCTL_DISARM: BUSY until the release (R138). -/
def armctlDisarm (by_ p : Nat) (v : W64) (s : State) : State :=
  armGo by_ p v (fun bh s =>
    let rec_ := (v.extractLsb' 0 12).toNat
    let gang := (v.extractLsb' 23 20).toNat
    let part := s.partOf bh
    if (recordPa s bh rec_).isNone then armEnds p 1 s
    else match gangLive s part gang rec_ with
      | none => armEnds p 9 s
      | some _ => disarm part gang rec_ none (some p) s) s
def execArmctlDisarm (p : Nat) (v : W64) (s : State) : Out := .next (armctlDisarm p p v s)

/-- The inputs that ingress holds for a device are tried again, in order. (log 41, DEDUCED) -/
def retryIngress (dev : Nat) (s : State) : State :=
  s.flight.foldl (fun s e => match e.2 with
    | .ingress p (.mail m) => if p / 2 = dev then sendMail p m (s.endFl e.1) else s
    | .ingress p (.arm v t k) =>
      if p / 2 = dev then
        match bhsOf s dev (v.extractLsb' 43 15).toNat with
        | [] => armEnds p 2 (s.endFl e.1)
        | bh :: _ => armNow p bh v (t, k) (s.endFl e.1)
      else s
    | _ => s) s

/-- An arming that ingress holds goes ahead once nothing makes it wait. (log 41, DEDUCED) -/
def retryArm (id : Nat) (s : State) : Out :=
  .next (match s.fl? id with
    | some (.ingress p (.arm v t k)) =>
      (match bhsOf s (p / 2) (v.extractLsb' 43 15).toNat with
       | [] => armEnds p 2 (s.endFl id)
       | bh :: _ => if armHeld s bh (v.extractLsb' 0 12).toNat then s else armNow p bh v (t, k) (s.endFl id))
    | _ => s)

/-! ### Replay (R409) -/

/-- RPCTL.DIV. -/
def diverge (bh : Nat) (s : State) : State := s.modBu bh fun b => { b with rpctl := b.rpctl ||| (1#64 <<< 61) }

/-- The queue entry that a KIND 5 record gives. -/
def feedEntry (s : State) (bh r : Nat) : QEntry :=
  { tagt := BitVec.ofNat 64 (rb r 0 8), tagm := BitVec.ofNat 32 (rb r 8 4), sender := BitVec.ofNat 32 (rb r 0x14 4),
    route := BitVec.ofNat 24 (rb r 0x10 3), flags := BitVec.ofNat 8 (rb r 0x13 1), sendt := BitVec.ofNat 32 (s.ns bh),
    payload := BitVec.ofNat 64 (rb r 0x20 8), host := BitVec.ofNat 64 (rb r 0x18 8) }

/-- The instance that a recorded start event is for: of the latest gang of its gang id, wherever a move has taken it (R409).
(log 96, DEDUCED) -/
def startTarget (s : State) (bh : Nat) (q : QEntry) : Option Nat :=
  let inst := (q.payload.extractLsb' 0 32).toNat
  let gang := (q.payload.extractLsb' 32 32).toNat
  (s.pt (s.partOf bh)).gangs.findSome? fun g => if g.id = gang then g.keys[inst]?.filter s.hasRe else none

/-- A recorded input is enqueued; a host message waits at the feed for an entry, `none`, and one whose instance has not been armed again
is dropped and DIV is set. (log 96, DEDUCED) -/
def feedInput (bh r : Nat) (s : State) : Option State :=
  let q := feedEntry s bh r
  let core := coreOf (rb r 0x0C 4 % 2 ^ 27)
  if q.host? then
    match hostrxOf s core with
    | none => some (diverge bh s)
    | some k => (ingressEntry k s).map fun e => arrive 8 k q e.2 e.1
  else some (match startTarget s bh q with
    | some k => arrive 8 k { q with route := q.route.extractLsb' 16 8 ++ BitVec.ofNat 16 (ridOf k) } (.start none) s
    | none => diverge bh s)

/-- REPLAY_FEED_INPUT: ingress enqueues the next recorded input once local T has reached the tick of its TDISP. -/
def execReplayFeedInput (bh : Nat) (s : State) : Out :=
  .next (let b := s.bu bh
         if rpMode b ≠ 2 then s
         else match ((List.range (feedCap s bh)).drop b.feedIdx).find? fun i => feedKind (feedRec s bh i) == 5 with
           | none => s
           | some i =>
             let r := feedRec s bh i
             if s.ticks bh < rb r 0x28 8 / 2 ^ (b.pcfg.extractLsb' 0 5).toNat then s
             else (feedInput bh r (s.modBu bh fun b => { b with feedIdx := i + 1 })).getD s)

/-! ### Attestation (R440, R441) -/

/-- A big-endian value's bytes. -/
def beBytes (n v : Nat) : List Byte := (leBytes n v).reverse
/-- A big-endian number of bytes. -/
def beNat (l : List Byte) : Nat := leNat l.reverse
/-- n bytes of an image at an offset. -/
def imgAt (img : List Byte) (off n : Nat) : List Byte := (List.range n).map fun i => img.getD (off + i) 0
def imgWord (img : List Byte) (off : Nat) : Nat := leNat (imgAt img off 4)

/-- Every BHPART, window-table entry and PAIR register of a device, in ascending management address. -/
def configBytes (s : State) (dev : Nat) : List Byte :=
  (List.range 24).flatMap fun i =>
    let b := s.bu (dev * 32 + i)
    leBytes 8 (b.bhpart ||| BitVec.ofNat 64 b.reset.toNat).toNat ++ ((List.range 64).flatMap fun j => leBytes 16 (Map.get 0 b.windows j).toNat) ++
      (List.range 4).flatMap fun c =>
        (List.range 256).flatMap fun n => leBytes 8 (Map.get 0 (s.cl ((dev * 32 + i) * 4 + c)).pairs n).toNat

/-- Bytes 0x000 to 0x0DF of the report (Table 23-8). -/
def reportBody (s : State) (p : Nat) : List Byte :=
  let d := s.de (p / 2)
  let sha (l : List Byte) : List Byte := beBytes 48 (Config.sha384 l).toNat
  [0x4B, 0x32, 0x34, 0x41] ++ imgAt d.image 4 4 ++ List.replicate 8 0 ++ sha (beBytes 96 d.idpub.toNat) ++
    sha (d.image.take (imgWord d.image 8)) ++ sha (configBytes s (p / 2)) ++ leBytes 48 (s.po p).nonce.toNat ++
    List.replicate 16 0

/-- A port's report is asked for through port `by_`; a request while one of its own waits reads as busy. -/
def attestGo (by_ p : Nat) (s : State) : State :=
  if !portOpen s by_ then s
  else if (s.po p).attBusy then s.modPo p fun q => { q with attStatus := 1 }
  else (s.modPo p fun q => { q with attBusy := true, attDone := false, attStatus := 1 }).modDe (p / 2) fun d =>
    { d with attQueue := d.attQueue ++ [p] }
/-- ATTEST_REQUEST: a port asks for its report. -/
def execAttestRequest (p : Nat) (s : State) : Out := .next (attestGo p p s)

/-- ATTEST_COMPLETE: the oldest request is served: the report and its signature, or no identity. (log 1, DESIGN CHOICE) -/
def execAttestComplete (p : Nat) (s : State) : Out :=
  .next (if (s.de (p / 2)).attQueue.head? ≠ some p then s
  else
    let d := s.de (p / 2)
    let body := reportBody s p
    let s := s.modDe (p / 2) fun d => { d with attQueue := d.attQueue.drop 1 }
    if !d.idok then s.modPo p fun q => { q with attBusy := false, attDone := true, attStatus := 2 }
    else
      let sig := Config.identitySign (p / 2) s.free body
      { s.modPo p fun q => { q with attBusy := false, attDone := true, attStatus := 0
                                    rep := BitVec.ofNat 2560 (leNat (body ++ beBytes 96 sig.toNat)) } with
        free := s.free + 1 })

end Sys2Proof.Machine
end

