-- ==== Sys2Proof/Machine/Timing.lean ====
section
/-! DEFINITION. Timing.lean: the exchanges of timing flits between a partition's channels (R345, R415). -/

namespace Sys2Proof.Machine

/-- The body of a timing flit (R415). -/
def timingBody (role t1 t2 t3 part root : Nat) : BitVec 1792 :=
  mkBody [(0, 1, role), (8, 8, t1), (16, 8, t2), (24, 8, t3), (32, 2, part), (34, 2, root)]

/-- A plane that a partition uses between a device and its root: the bulkhead of that number belongs to it on both. -/
def timingPlane (s : State) (dev part plane : Nat) : Bool :=
  let one (d : Nat) : Bool := plane < 24 && s.partOf? (d * 32 + plane) == some part && !(s.bu (d * 32 + plane)).reset &&
    (s.li (d * 32 + plane)).up == 2 && !cricketLost s d
  one dev && one (rootOf s dev part) && dev != rootOf s dev part

/-- TIMING_EXCHANGE: the channel sends a request on a plane, stamped t1. -/
def execTimingExchange (dev part plane : Nat) (s : State) : Out :=
  .next (if !timingPlane s dev part plane then s
  else
    let t1 := (s.chanOf dev part).ns
    let root := rootOf s dev part
    (sendFlit (dev * 32 + plane) { hdr := s.stamped (dev * 32 + plane) (mkHdr 3 root), body := timingBody 0 t1 0 0 part root } s).emit
      (.timing dev part plane t1 none))

/-- TIMING_REQUEST: the root stamps t2 and t3 and replies. -/
def execTimingRequest (id : Nat) (s : State) : Out :=
  .next (match s.fl? id with
  | some (.timing dev part plane t1 none) =>
    let root := rootOf s dev part
    let t := (s.chanOf root part).ns
    (sendFlit (root * 32 + plane) { hdr := s.stamped (root * 32 + plane) (mkHdr 3 dev), body := timingBody 1 t1 t t part root } s).setFl id
      (.timing dev part plane t1 (some (t, t)))
  | _ => s)

/-- TIMING_REPLY, due when the channel's time is t4: the plane's offset and uncertainty are known, and MEAS is judged; the offset is
what the channel slews by from here on, at a rate of at most 200 parts per million that it sets now (R345). (log 13, DESIGN CHOICE) -/
def execTimingReply (id t4 rate : Nat) (s : State) : Out :=
  .next (match s.fl? id with
  | some (.timing dev part plane t1 (some (t2, t3))) =>
    if t4 ≠ (s.chanOf dev part).ns then s
    else
    let offset : Int := (((t2 : Int) - t1) - ((t4 : Int) - t3)) / 2
    let uncert : Int := (((t4 : Int) - t1) - ((t3 : Int) - t2)) / 2
    judgeClock dev part true ((s.endFl id).modChan dev part fun c =>
      { c with planes := Map.set c.planes plane (offset, uncert.toNat), since := 0, rate := min rate 200 })
  | _ => s)

end Sys2Proof.Machine
end

