-- ==== Sys2Proof/Machine/Power.lean ====
section
/-! DEFINITION. Power.lean: the reset of a bulkhead (R394), its power states (R442), temperature and the power cap (R443), boot
and the module's reset (R1, R396, R438 to R440). -/

namespace Sys2Proof.Machine

/-! ### What belongs to a unit -/

/-- The packed coordinate of a reactor's cluster. -/
def unitOfReac (r : Nat) : Nat := cluOfReac r * 1024

/-- The unit that a walk is for. -/
def WalkFor.unit : WalkFor → Nat
  | .dispatch r => unitOfReac r
  | .lateMiss ts .. => ts
  | .code ts _ => ts
  | .side r _ => unitOfReac r
  | .skip ts => ts

/-- The unit whose work a flight is; none for what stands by itself: entries on their way, the release of a gang. -/
def Flight.unit : Flight → Option Nat
  | .load ts .. => some ts
  | .store q => some q.ts
  | .weevil q => some q.ts
  | .engine ts .. => some ts
  | .event m => some (unitOfReac m.reactor)
  | .entry .. => none
  | .walk w _ => some w.unit
  | .fill ts .. => some ts
  | .pin w .. => some w.unit
  | .answer _ _ _ ts => some ts
  | .credit r _ => some (unitOfReac r)
  | .notice r .. => some (unitOfReac r)
  | .noticeAck cl _ _ => some (cl * 1024)
  | .move r .. => some (unitOfReac r)
  | .disarm .. => none
  | .timing dev .. => some (dev * 131072)
  | .heldRead _ => none
  | .hostRead p .. => some (anchorOf p * 4096)
  | .ingress p _ => some (anchorOf p * 4096)
  | .freeze ts .. => some ts
  | .turn ts .. => some ts

/-! ### Bulkhead reset (R394) -/

/-- Step 2 for one thread set of the bulkhead: what it wrote past its commit point is settled, and its work in flight discarded. -/
def settleRanges (u : Nat) (s : State) : State :=
  if (s.th u).act.isSome then dropWork u true (poisonRanges u true (dropStores u true s)) else s
/-- Then its activation completes as cancelled. -/
def settleThread (u : Nat) (s : State) : State := if (s.th u).act.isSome then cancelThread u s else s

/-- Steps 2 and 3 for one reactor: what it has formed completes as cancelled, and the entries that wait are discarded. -/
def settleReactor (r : Nat) (s : State) : State :=
  let x := s.re r
  let s := match x.pend with
    | some p => cancelPending r { p with cancelled := true } (dropXlate r p.act s)
    | none => s
  let s := x.requeued.foldl (fun s p => if p.act.kind == .page then sideRec r p.act s else cancelPending r p s) s
  (s.re r).entries.foldl (fun s e => discardTo e.owner.sender 13 (bhOfReac r * 4096) e.q (freeEntry r e.slot s)) s

/-- The reactors of the bulkheads that pass a test cease to exist, and connections to them are lost. (log 43, DEDUCED) -/
def dropReactors (sel : Nat → Bool) (s : State) : State :=
  let hits (c : Conn) : Bool := c.valid && sel (bhOfReac (liveKey s 4 c.target))
  let lose (k : Nat) : Nat := if sel (bhOfReac k) then lostKey else k
  { s with
    reac := (s.reac.filter fun e => !sel (bhOfReac e.1)).map fun (e : Nat × Reactor) =>
      (e.1, { e.2 with conns := e.2.conns.map fun (c : Conn) => if hits c then { c with lost := true } else c
                       spareReqs := e.2.spareReqs.filter fun (q : Nat × Nat) => !sel (bhOfReac q.1) })
    part := s.part.map fun (e : Nat × Partition) =>
      (e.1, { e.2 with gangs := e.2.gangs.map fun (g : Gang) => { g with keys := g.keys.map lose } })
    dev := s.dev.map fun (e : Nat × Device) =>
      (e.1, { e.2 with moved := e.2.moved.filter fun (m : Nat × Nat) => !sel (bhOfReac m.2) }) }

/-- Cancel tokens of the bulkhead's activations that still wait for an entry of a target elsewhere go on their way without one: every
activation sends its tokens (R394 step 2). (log 43, DEDUCED) -/
def sendStranded (bh : Nat) (s : State) : State :=
  s.flight.foldl (fun (s : State) (e : Nat × Flight) => match e.2 with
    | .event m =>
      (match (s.re m.reactor).conns[m.conn]? with
       | some c => if bhOfReac m.reactor = bh ∧ m.flags.getLsbD 1 ∧ c.stands ∧ bhOfReac (liveKey s 4 c.target) ≠ bh
                   then depart e.1 m c .unheld s else s
       | none => s)
    | _ => s) s

/-- Step 4: the memory-side cache writes back its dirty lines and is empty. -/
def flushCache (bh : Nat) (s : State) : State := { s with cached := s.cached.filter fun e => bhOfPa (64 * e.1) != bh }

/-- Steps 1 to 4 of R394: the gate fails requests, activations are settled, reactors cease to exist, the cache is written
back; an anchor's host port goes down. The link trains again when the reset ends. (log 42, DEDUCED) (log 43, DEDUCED)
(log 73, DESIGN CHOICE) -/
def resetBegin (bh : Nat) (s : State) : State :=
  let s := s.modBu bh fun b => { b with reset := true }
  let us := (s.thr.filter fun e => bhOf e.1 == bh).map (·.1)
  let s := us.foldl (fun s u => settleThread u s) (us.foldl (fun s u => settleRanges u s) s)
  let rs := (s.reac.filter fun e => bhOfReac e.1 == bh).map (·.1)
  let s := sendStranded bh (rs.foldl (fun s r => settleReactor r s) s)
  let s := dropReactors (· == bh) (dropMoves (fun c r => bhOfCore c == bh && bhOfReac r != bh) s)
  let s := { s with flight := s.flight.filter fun e => match e.2.unit with
    | some u => bhOf u != bh
    | none => true }
  let s := flushCache bh s
  if bh % 32 = 0 then linkDown (bh / 32 * 2) s else if bh % 32 = 23 then linkDown (bh / 32 * 2 + 1) s else s

/-- A bulkhead's registers after its reset (R10): HBM, what the controller keeps there, the log and the sensors' readings stay. (log 42, DEDUCED) -/
def Bulkhead.afterReset (b : Bulkhead) : Bulkhead :=
  { temp := b.temp, power := b.power, sideBase := b.sideBase, attrBase := b.attrBase, log := b.log, logN := b.logN,
    logRead := b.logRead, lost := b.lost, corrected := b.corrected, negligible := b.negligible, migs := b.migs,
    migFlags := b.migFlags, migBad := b.migBad, noPort := b.noPort, deadMap := b.deadMap, frames := b.frames, bounce := b.bounce, pinCount := b.pinCount, retired := b.retired }

/-- Scratchpads of a bulkhead read as zero. -/
def wipeScratch (bh : Nat) (s : State) : State :=
  let mine (pa : Nat) : Bool := isSp pa && bhOfPa pa == bh
  { s with mem := s.mem.filter fun c => !mine c.1
           poison := s.poison.filter fun k => !mine (64 * k)
           flips := s.flips.filter fun e => !mine (64 * e.1) }

/-- Cores, clusters and thread sets of a bulkhead take their reset values; a retired core stays retired (R396). -/
def wipeUnits (bh : Nat) (s : State) : State :=
  { s with thr := s.thr.filter fun e => bhOf e.1 != bh
           clu := s.clu.filter fun e => bhOfClu e.1 != bh
           core := s.core.filterMap fun (e : Nat × CoreSt) =>
             if bhOfCore e.1 ≠ bh then some e else if e.2.retired then some (e.1, { retired := true }) else none }

def imgLen (img : List Byte) : Nat := imgWord img 8
/-- A section of an image: what lies from its offset to LEN. -/
def imgSection (img : List Byte) (i : Nat) : List Byte := (img.take (imgLen img)).drop (imgWord img (0x130 + 4 * i))

/-- The healthy lanes of a bulkhead's port as its module's image configures them (Table 22-8, R396). -/
def cfgLanes (s : State) (bh : Nat) : Byte :=
  if (s.bu bh).retired then 0 else Config.repairLanes (imgSection (s.de (devOfBh bh)).image 1) (bh % 32)

/-- An anchor's port after its reset: its link is down, and HSEM with it. -/
def resetPort (bh : Nat) (s : State) : State :=
  let one (p : Nat) (s : State) : State := if anchorOf p = bh then (linkDown p s).modPo p fun _ => {} else s
  one (bh / 32 * 2 + 1) (one (bh / 32 * 2) s)

/-- Steps 5 and 6: scratchpads and registers are cleared, PORTSTAT takes its reset values, from which the port's link is to train
(RETRAIN_DONE), and a record is written. With both anchors in reset no Cricket kept time, so every channel of the device starts unmeasured (R395). (log 42, DEDUCED) -/
def resetEnd (bh : Nat) (s : State) : State :=
  let part := s.partOf? bh
  let s := if cricketLost s (devOfBh bh) then s.modDe (devOfBh bh) fun d => { d with
      chan := d.chan.map fun (e : Nat × Channel) => (e.1, { e.2 with planes := [], insync := false, meas := 0xFFFFFFFF }) }
    else s
  let s := wipeUnits bh (wipeScratch bh s)
  let s := s.modBu bh Bulkhead.afterReset
  let s := resetPort bh s
  let s := s.modLi bh fun l =>
    { l with up := 0, starts := l.starts || l.up != 0, width := 0, ks := false, lanes := cfgLanes s bh
             retrain := 0, replay := 0, authf := 0 }
  let s := logTo bh { peer := BitVec.ofNat 32 (bh * 4096), cause := 20 } s
  match part with
  | some p => evalDev (devOfBh bh) (judgeClock (devOfBh bh) p false s)
  | none => s

/-- BULKHEAD_RESET: a port writes 1 to RST. -/
def execBulkheadReset (p bh : Nat) (s : State) : Out :=
  .next (managed p bh (fun s => if (s.bu bh).reset then s else resetBegin bh s) s)

/-- BULKHEAD_RESET_END; a bulkhead that is OFF leaves its reset with that state (R442). -/
def execBulkheadResetEnd (bh : Nat) (s : State) : Out :=
  .next (if (s.bu bh).reset ∧ (s.bu bh).pwrSt ≠ 2 then resetEnd bh s else s)

/-! ### Power states (R442) -/

/-- A request for a power state: 0 ON, 1 IDLE, 2 OFF. Leaving OFF runs steps 5 and 6 of R394. -/
def powerReq (p bh : Nat) (r : BitVec 2) (s : State) : State :=
  if r = 3 then s
  else if r ≠ 0 ∧ (s.bu bh).bhpart.getLsbD 63 then viewRule p s
  else
    let off := (s.bu bh).pwrSt = 2
    let s := if off ∧ r ≠ 2 then resetEnd bh s else s
    s.modBu bh fun b => { b with pwrReq := r, pwrSt := r }

def execPwrReqOn (p bh : Nat) (s : State) : Out := .next (managed p bh (powerReq p bh 0) s)
def execPwrReqIdle (p bh : Nat) (s : State) : Out := .next (managed p bh (powerReq p bh 1) s)
def execPwrReqOff (p bh : Nat) (s : State) : Out := .next (managed p bh (powerReq p bh 2) s)

/-! ### Temperature and the power cap (R443) -/

/-- The sensors of a bulkhead are read: TEMP, of 105 °C or more lowering its clock, and POWER, which is a free value.
(log 87, DESIGN CHOICE) -/
def readSensors (bh : Nat) (temp : Byte) (s : State) : State :=
  let (f, s) := s.draw
  s.modBu bh fun b => { b with temp := temp, thr := 105 ≤ temp.toNat, power := f.extractLsb' 0 16 }

/-- At 115 °C the bulkhead passes through its whole reset and is left OFF, TRIP is set and a record is written. (log 107, DESIGN CHOICE) -/
def tripAt (bh : Nat) (temp : Byte) (s : State) : State :=
  if temp.toNat < 115 then readSensors bh temp s
  else
    let s := if (s.bu bh).pwrSt = 2 then s else resetEnd bh (if (s.bu bh).reset then s else resetBegin bh s)
    logTo bh { peer := BitVec.ofNat 32 (bh * 4096), cause := 23, aux := temp.setWidth 32 }
      ((readSensors bh temp s).modBu bh fun b => { b with pwrReq := 2, pwrSt := 2, trip := true })

/-- THERMAL_THROTTLE: TEMP is read; at 105 °C the bulkhead's clock is lowered, and at 115 °C it trips. -/
def execThermalThrottle (bh : Nat) (temp : Byte) (s : State) : Out := .next (tripAt bh temp s)

/-- THERMAL_TRIP: a reading of 115 °C or more. -/
def execThermalTrip (bh : Nat) (temp : Byte) (s : State) : Out := .next (if temp.toNat < 115 then s else tripAt bh temp s)

/-- PWRMEAS against the cap; values of PCAP above 9,000 act as 9,000. -/
def judgeCap (dev : Nat) (s : State) : State :=
  s.modDe dev fun d => { d with lowered := min d.pcap.toNat 9000 < d.pwrmeas.toNat }
/-- PWRMEAS is taken. -/
def takePower (dev : Nat) (w : BitVec 16) (s : State) : State := judgeCap dev (s.modDe dev fun d => { d with pwrmeas := w })
def execPowerCapExceeded (dev : Nat) (w : BitVec 16) (s : State) : Out := .next (takePower dev w s)
def execPowerWithinCap (dev : Nat) (w : BitVec 16) (s : State) : Out := .next (takePower dev w s)

/-! ### Boot (R438 to R440) -/

def imgVersion (img : List Byte) : Nat := imgWord img 4
def imgNum (n : Nat) (img : List Byte) (off len : Nat) : BitVec n := BitVec.ofNat n (beNat (imgAt img off len))

/-- The checks of step 2: the root key's hash, OWNERSIG and SIG. (log 2, PRESUMED) -/
def imgVerifies (img : List Byte) : Bool :=
  Config.sha384 (imgAt img 0x10 96) == Config.rootKeyHash &&
    Config.ecdsaVerify (imgNum 768 img 0x10 96) (Config.sha384 (imgAt img 0x70 96)) (imgNum 768 img 0xD0 96) &&
    Config.ecdsaVerify (imgNum 768 img 0x70 96) (Config.sha384 (imgAt img 0 (imgLen img))) (imgNum 768 img (imgLen img) 96)

/-- Step 3: the copy with the greater VERSION among those that verify, the first where they are equal. (log 44, DESIGN CHOICE) -/
def chooseCopy (a b : List Byte) : Option (Bool × List Byte) :=
  match imgVerifies a, imgVerifies b with
  | true, true => if imgVersion a < imgVersion b then some (true, b) else some (false, a)
  | true, false => some (false, a)
  | false, true => some (true, b)
  | false, false => none

/-- Writes BOOTSTAT.CODE: the module stays there until its next reset. -/
def bootStops (dev : Nat) (code : Byte) (s : State) : State := s.modDe dev fun d => { d with code := code }

/-- Step 4: units that REPAIR retires (R396). (log 3, DESIGN CHOICE) -/
def retireUnits (dev : Nat) (rep : List Byte) (s : State) : State :=
  let s := (List.range 24).foldl (fun s b =>
    (s.modBu (dev * 32 + b) fun x =>
      { x with retired := Config.repairBulkhead rep b, noPort := Config.repairLanes rep b == 0 }).modLi (dev * 32 + b) fun l =>
      { l with lanes := if Config.repairBulkhead rep b then 0 else Config.repairLanes rep b }) s
  (List.range 24576).foldl (fun s c =>
    if Config.repairCore rep c then s.modCo (dev * 32768 + c) fun k => { k with retired := true } else s) s

/-- Steps 2 to 4 of the boot, by the ROM of an anchor. (log 3, DESIGN CHOICE) -/
def bootRom (dev : Nat) (s : State) : State :=
  let d := s.de dev
  match chooseCopy d.flash0 d.flash1 with
  | none => bootStops dev 1 s
  | some (second, img) =>
    if (List.range 4).any fun i => imgLen img ≤ imgWord img (0x130 + 4 * i) then bootStops dev 2 s
    else
      let rep := imgSection img 1
      if Config.repairBulkhead rep 0 && Config.repairBulkhead rep 23 then bootStops dev 3 s
      else
        let key := match Config.identityKey dev 0 (imgSection img 2) with
          | some k => some k
          | none => Config.identityKey dev 1 (imgSection img 2)
        (retireUnits dev rep s).modDe dev fun d =>
          { d with leadStep := 4, image := img, copy := second, imgver := BitVec.ofNat 16 (imgVersion img)
                   idok := key.isSome, idpub := key.getD 0 }

/-- MODULE_POWER_ON: the ROMs of the anchors run and both CXL links train. Whether bulkhead 0's ROM comes to step 4 within 1 s
is a free value: when it does not, bulkhead 23 is to lead. (log 44, DESIGN CHOICE) (log 1, DESIGN CHOICE) -/
def execModulePowerOn (dev : Nat) (img0 img1 : List Byte) (s : State) : Out :=
  .next (if 1024 ≤ dev ∨ (s.de dev).powered then s
  else
    let (f, s) := s.draw
    let s := s.modDe dev fun d => { d with powered := true, flash0 := img0, flash1 := img1, lead := 0, leadStep := 1 }
    let s := (s.modPo (2 * dev) fun q => { q with up := true }).modPo (2 * dev + 1) fun q => { q with up := true }
    if f.getLsbD 0 then bootRom dev s else s)

/-- BOOT_LEAD_TIMEOUT: bulkhead 0 has not reached step 4, so bulkhead 23 leads. (log 44, DESIGN CHOICE) -/
def execBootLeadTimeout (dev : Nat) (s : State) : Out :=
  .next (let d := s.de dev
         if d.powered ∧ d.lead = 0 ∧ d.leadStep < 4 ∧ d.code = 0 then bootRom dev (s.modDe dev fun d => { d with lead := 23 })
         else s)

/-- BOOT_DONE: firmware has trained the fabric links, and CXL.mem and the management space open. -/
def execBootDone (dev : Nat) (s : State) : Out :=
  .next (let d := s.de dev
         if d.powered ∧ d.leadStep = 4 ∧ d.code = 0 ∧ !d.done then
           ((List.range 24).foldl (fun s b => if (s.bu (dev * 32 + b)).retired then s else trainLink (dev * 32 + b) s) s).modDe dev
             fun d => { d with done := true }
         else s)

/-- Whether a partition lies on one device alone; one of which no bulkhead is left is where its id has its lowest device (R391).
(log 74, DESIGN CHOICE) -/
def partOnly (s : State) (dev p : Nat) : Bool :=
  (p / 24 == dev || s.bh.any fun e => s.partOf? e.1 == some p) && s.bh.all fun e => s.partOf? e.1 != some p || devOfBh e.1 == dev

/-- Whether an event on its way is a module's own: its units have sent it, or its hosts, or it starts a reactor of the module.
(log 74, DESIGN CHOICE) -/
def ownEvent (dev r : Nat) (q : QEntry) : Owner → Bool
  | .ingress | .start _ => devOfBh (bhOfReac r) == dev
  | _ => devOf q.sender.toNat == dev

/-- MODULE_RESET: the module loses all its state, its HBM's contents with it, and so does a partition that lies on it alone; what
other devices have in flight stays theirs, and their moves to it fail (R1, R121). That HBM then reads as after power-on, whether its
feed stays on or not, is the model's choice. (log 74, DESIGN CHOICE) -/
def execModuleReset (dev : Nat) (s : State) : Out :=
  .next (let down (l : Link) : Link := { up := 0, lanes := 0, txGen := l.txGen, rxGen := l.rxGen }
         let s := (List.range 24).foldl (fun s b =>
           (s.modLi (dev * 32 + b) down).modLi (peerEnd (dev * 32 + b)) fun l => { l with up := 0, out := [], cut := 0 }) s
         let s := dropReactors (devOfBh · == dev) (dropMoves (fun c r => devOfBh (bhOfCore c) == dev && devOfBh (bhOfReac r) != dev) s)
         { s with
           mem := s.mem.filter fun c => c.1 / 2 ^ 42 != dev
           poison := s.poison.filter fun k => 64 * k / 2 ^ 42 != dev
           flips := s.flips.filter fun e => 64 * e.1 / 2 ^ 42 != dev
           elided := s.elided.filter fun k => 64 * k / 2 ^ 42 != dev
           lostMeta := s.lostMeta.filter fun k => 64 * k / 2 ^ 42 != dev
           part := s.part.filter fun e => !partOnly s dev e.1
           cached := s.cached.filter fun e => 64 * e.1 / 2 ^ 42 != dev
           thr := s.thr.filter fun e => devOf e.1 != dev
           core := s.core.filter fun e => devOfBh (bhOfCore e.1) != dev
           clu := s.clu.filter fun e => devOfBh (bhOfClu e.1) != dev
           bh := s.bh.filter fun e => devOfBh e.1 != dev
           dev := Map.del s.dev dev
           txid := s.txid.filter fun e => devOf (e.1 / 2 ^ 15 % 2 ^ 27) != dev
           flight := s.flight.filter fun e => match e.2 with
             | .disarm p _ _ ts port =>
               !((ts.map devOf).getD (((port.map (· / 2))).getD dev) == dev || partOnly s dev p)
             | .entry r q o => !ownEvent dev r q o
             | _ => match e.2.unit with
               | some u => devOf u != dev
               | none => true })

end Sys2Proof.Machine
end

