-- ==== Sys2Proof/Machine/Mgmt.lean ====
section
/-! DEFINITION. Mgmt.lean: the management space (R431, R432, Table 23-1): bulkhead and cluster registers, their writes, stops
(R401), and what an access reads. -/

namespace Sys2Proof.Machine

/-! ### Bulkhead registers -/

/-- Whether a partition is stopped: RUN is 0 in all its bulkheads and none runs an activation (R435). -/
def partStopped (s : State) (part : Nat) : Bool :=
  (s.bh.all fun b => !(s.partOf? b.1 == some part && s.running b.1)) &&
    s.thr.all fun t => !(t.2.act.isSome && s.partOf? (bhOf t.1) == some part)

/-- A bit of a value. -/
def v1 (v : W64) (i : Nat) : W64 := BitVec.ofNat 64 (v.getLsbD i).toNat <<< i
/-- The bits [lo + n - 1 : lo] of a value, in place. -/
def vf (v : W64) (lo n : Nat) : W64 := (v.extractLsb' lo n).setWidth 64 <<< lo

/-- A write of BHPART (R390): only while V = 0 or the owning partition is stopped, and only a rectangle that holds this
bulkhead; a 1 to RST resets the bulkhead, whatever its partition does. (log 42, DEDUCED) -/
def writeBhpart (p bh : Nat) (v : W64) (s : State) : State :=
  let r0 := (v.extractLsb' 46 2).toNat
  let rn := (v.extractLsb' 44 2).toNat
  let c0 := (v.extractLsb' 41 3).toNat
  let cn := (v.extractLsb' 38 3).toNat
  let r := bh % 32 / 6
  let c := bh % 32 % 6
  let old := s.partOf? bh
  let free := match old with
    | none => true
    | some q => partStopped s q
  if 3 < r0 + rn ∨ 5 < c0 + cn ∨ r < r0 ∨ r0 + rn < r ∨ c < c0 ∨ c0 + cn < c then viewRule p s
  else if v.getLsbD 0 then (if (s.bu bh).reset then s else resetBegin bh s)
  else if !free ∨ (s.bu bh).reset ∨ (s.bu bh).retired then viewRule p s
  else
    let s := s.modBu bh fun b => { b with bhpart := vf v 38 26 }
    let judge (q : Option Nat) (s : State) : State := match q with
      | some q => judgeClock (devOfBh bh) q false s
      | none => s
    judge (s.partOf? bh) (if old = s.partOf? bh then s else judge old s)

/-- A write of PCFG (R435); a change of RUN from 0 to 1 clears the partition's gang counter (R136). (log 45, DEDUCED) -/
def writePcfg (p bh : Nat) (v : W64) (s : State) : State :=
  let old := (s.bu bh).pcfg
  if (s.running bh ∧ vf v 0 48 ≠ vf old 0 48) ∨ 20 < (v.extractLsb' 0 5).toNat then viewRule p s
  else
    let start := !s.running bh && v.getLsbD 63
    let part := s.partOf? bh
    let fresh := start && match part with
      | some q => s.bh.all fun b => !(s.partOf? b.1 == some q && s.running b.1)
      | none => false
    let s := s.modBu bh fun b => { b with pcfg := v1 v 63 ||| vf v 0 48 }
    let s := match part with
      | some q => judgeClock (devOfBh bh) q false (if fresh then s.modPt q fun x => { x with gangCtr := 0 } else s)
      | none => s
    evalDev (devOfBh bh) s

/-- A write of PROOT: ignored while RUN = 1. -/
def writeProot (p bh : Nat) (v : W64) (s : State) : State :=
  if s.running bh then viewRule p s else s.modBu bh fun b => { b with proot := vf v 4 48 }

/-- PWR: REQ, and TRIP is cleared by a 1. -/
def writePwr (p bh : Nat) (v : W64) (s : State) : State :=
  let s := s.modBu bh fun b => { b with trip := b.trip && !v.getLsbD 46 }
  powerReq p bh (v.extractLsb' 62 2) s

/-- PORTSTAT: the counts that a write sets (Table 22-8). -/
def writePortstat (bh : Nat) (v : W64) (s : State) : State :=
  s.modLi bh fun l => { l with retrain := v.extractLsb' 32 16, replay := v.extractLsb' 16 16, authf := v.extractLsb' 0 16 }

/-- TRCTL (Table 21-1): FULL is kept; what ingress holds is tried again. -/
def writeTrctl (bh : Nat) (v : W64) (s : State) : State :=
  retryIngress (devOfBh bh) (s.modBu bh fun b =>
    { b with trctl := v1 v 63 ||| v1 v 62 ||| v1 b.trctl 61 ||| vf v 57 4 ||| vf v 48 8 ||| vf v 16 20 })

/-- TRWP: any write clears WP, DROP and FULL (R397). -/
def writeTrwp (bh : Nat) (s : State) : State :=
  retryIngress (devOfBh bh) (s.modBu bh fun b => { b with trwp := 0, trctl := b.trctl &&& ~~~(1#64 <<< 61) })

/-- RPCTL: while the partition is stopped, MODE not reserved; the feed starts over. (log 45, DEDUCED) -/
def writeRpctl (p bh : Nat) (v : W64) (s : State) : State :=
  let stopped := !s.running bh && match s.partOf? bh with
    | some q => partStopped s q
    | none => true
  if !stopped ∨ v.extractLsb' 62 2 = 3 then viewRule p s
  else s.modBu bh fun b => { b with rpctl := vf v 62 2 ||| v1 b.rpctl 61 ||| vf v 57 4 ||| vf v 16 20, feedIdx := 0 }

/-- CKSTAT.ROOT: ignored while the partition runs (Table 18-2). -/
def writeCkstat (p bh : Nat) (v : W64) (s : State) : State :=
  if s.running bh then viewRule p s
  else
    let s := s.modBu bh fun b => { b with cksRoot := v.extractLsb' 52 10 }
    match s.partOf? bh with
    | some q => judgeClock (devOfBh bh) q false s
    | none => s

/-- PLPOOL (R436). -/
def writePlpool (p bh : Nat) (v : W64) (s : State) : State :=
  if s.running bh ∨ v.extractLsb' 52 12 ≠ 0 ∨ v.extractLsb' 1 19 ≠ 0 then viewRule p s
  else s.modBu bh fun b => { b with plpool := v }

/-- PAGER (R436). (log 45, DEDUCED) -/
def writePager (p bh : Nat) (v : W64) (s : State) : State :=
  let u := (v.extractLsb' 0 27).toNat
  if v.extractLsb' 43 20 ≠ 0 ∨ (v.getLsbD 63 ∧ (!unitOk u ∨ (s.partOf? bh).isNone ∨ s.partOf? (bhOf u) ≠ s.partOf? bh)) then viewRule p s
  else s.modBu bh fun b => { b with pager := v }

/-- A window-table entry: ignored whole where a reserved bit is set (R39). -/
def writeWindow (p bh i : Nat) (v : W128) (s : State) : State :=
  if v.extractLsb' 84 44 ≠ 0 ∨ v.extractLsb' 37 8 ≠ 0 ∨ v.extractLsb' 0 16 ≠ 0 then viewRule p s
  else s.modBu bh fun b => { b with windows := Map.set b.windows i v }

/-- A migration-table entry (R80, R82): PTR is the controller's; it is 0 where a copy begins. -/
def writeMig (p bh i : Nat) (v : W128) (s : State) : State :=
  if !migValid s bh i v then viewRule p s
  else s.modBu bh fun b =>
    let ptr : BitVec 25 := if v.extractLsb' 126 2 = 2 then (Map.get 0 b.migs i).extractLsb' 99 25 else 0
    { b with migBad := b.migBad.filter (· != i), migs := Map.set b.migs i (v.extractLsb' 124 4 ++ (ptr ++ v.extractLsb' 0 99)) }

/-- A dead-member entry is cleared (R424). -/
def clearDead (bh dev : Nat) (s : State) : State := s.modBu bh fun b => { b with deadMap := b.deadMap.filter (· != dev) }

/-! ### Cluster registers -/

/-- BARn (R358). -/
def writeBar (p cl n : Nat) (v : W64) (s : State) : State :=
  let b := Map.get {} (s.cl cl).bars n
  let k := (v.extractLsb' 0 9).toNat
  if 256 < k ∨ b.arr ≠ 0 then viewRule p s
  else s.modCl cl fun c => { c with bars := Map.set c.bars n { b with count := k } }

/-- PAIRn (R366). -/
def writePair (p cl n : Nat) (v : W64) (s : State) : State :=
  if v.extractLsb' 50 14 ≠ 0 then viewRule p s else s.modCl cl fun c => { c with pairs := Map.set c.pairs n v }

/-- TRAPVEC (R366). -/
def writeTrapvec (p cl : Nat) (v : W64) (s : State) : State :=
  if targetOk v then s.modCl cl fun c => { c with trapvec := v } else viewRule p s

/-- BRKn (Table 21-6). -/
def writeBrk (cl n : Nat) (v : W64) (s : State) : State :=
  s.modCl cl fun c => { c with brk := Map.set c.brk n (vf v 2 62 ||| v1 v 0) }

/-- A stop request: the reactor stops between activations (R401). -/
def stopReac (cl rid : Nat) (s : State) : State :=
  let r := reacKey cl rid
  let s := s.modCl cl fun c => { c with stopreq := BitVec.ofNat 64 rid }
  if !s.hasRe r then s else evalDev (devOfBh (bhOfClu cl)) (wantStop r 1 s)

/-- A release ends the stop whatever began it. -/
def releaseReac (cl rid : Nat) (s : State) : State :=
  let r := reacKey cl rid
  let s := s.modCl cl fun c => { c with stopreq := BitVec.ofNat 64 (65536 + rid) }
  if !s.hasRe r then s
  else if (s.re r).st != .stop then s.modRe r fun x => { x with stopWant := false, kept := false }
  else
    let x := s.re r
    let s := if x.stopWhy = 4 then s else trace (bhOfReac r) 2 (stopRec s r 2 x.stopWhy x.brkAddr).bytes s
    evalDev (devOfBh (bhOfClu cl)) (s.modRe r fun x => { x with st := .hold, stopWant := false, brkPass := x.stopWhy = 0 })

def writeStopreq (cl : Nat) (v : W64) (s : State) : State :=
  if v.getLsbD 16 then releaseReac cl (v.toNat % 65536) s else stopReac cl (v.toNat % 65536) s

/-! ### The rows with registers of their own -/

def execBhpartWrite (p bh : Nat) (v : W64) (s : State) : Out := .next (managed p bh (writeBhpart p bh v) s)
def execPcfgWrite (p bh : Nat) (v : W64) (s : State) : Out := .next (managed p bh (writePcfg p bh v) s)
def execTrwpWrite (p bh : Nat) (_v : W64) (s : State) : Out := .next (managed p bh (writeTrwp bh) s)
def execWindowTableWrite (p bh i : Nat) (v : W128) (s : State) : Out :=
  .next (if 64 ≤ i then s else managed p bh (writeWindow p bh i v) s)
def execMigrationEntryWrite (p bh i : Nat) (v : W128) (s : State) : Out :=
  .next (if 64 ≤ i then s else managed p bh (writeMig p bh i v) s)
def execDeadMemberClear (p bh dev : Nat) (s : State) : Out := .next (managed p bh (clearDead bh dev) s)
def execStopRequest (p cl : Nat) (rid : BitVec 16) (s : State) : Out :=
  .next (managed p (bhOfClu cl) (stopReac cl rid.toNat) s)
def execStopRelease (p cl : Nat) (rid : BitVec 16) (s : State) : Out :=
  .next (managed p (bhOfClu cl) (releaseReac cl rid.toNat) s)

/-! ### The space (Table 23-1) -/

/-- What an offset of the management space names; a part of a wide register carries its index. -/
inductive Reg where
  | hsem | bootstat | pcap | pwrmeas | idpub (i : Nat)
  | mail (p i : Nat) | mbxctl (p : Nat) | hwmask (p : Nat) | mstat (p : Nat) | attctl (p : Nat) | attnonce (p i : Nat)
  | armctl (p : Nat) | attrep (p i : Nat)
  | bhReg (bh i : Nat) | window (bh i h : Nat) | mig (bh i h : Nat) | dead (bh i : Nat) | errlog (bh n i : Nat)
  | bar (cl n : Nat) | pair (cl n : Nat) | trapvec (cl : Nat) | brk (cl n : Nat) | stopreq (cl : Nat) | fwd (cl n h : Nat)
  | delay (core e i : Nat)
  | none
  deriving DecidableEq, Repr

/-- The register at an offset of a device's port block. -/
def portReg (p o : Nat) : Reg :=
  if o < 0x20 then .mail p (o / 8)
  else if o = 0x20 then .mbxctl p
  else if o = 0x28 then .hwmask p
  else if o = 0x30 then .mstat p
  else if o = 0x38 then .attctl p
  else if 0x40 ≤ o ∧ o < 0x70 then .attnonce p ((o - 0x40) / 8)
  else if o = 0x70 then .armctl p
  else if 0x80 ≤ o ∧ o < 0x1C0 then .attrep p ((o - 0x80) / 8)
  else .none

/-- The register at an offset of a cluster block. -/
def cluReg (cl o : Nat) : Reg :=
  if o < 0x80 then .bar cl (o / 8)
  else if 0x1000 ≤ o ∧ o < 0x1800 then .pair cl ((o - 0x1000) / 8)
  else if o = 0x1800 then .trapvec cl
  else if 0x1808 ≤ o ∧ o < 0x1848 then .brk cl ((o - 0x1808) / 8)
  else if o = 0x1848 then .stopreq cl
  else if 0x2000 ≤ o ∧ o < 0x2400 then .fwd cl ((o - 0x2000) / 16) (o / 8 % 2)
  else if 0x20000 ≤ o then .delay (cl * 256 + (o - 0x20000) / 512) (o % 512 / 32) (o % 32 / 8)
  else .none

/-- The register at an offset of a bulkhead block. -/
def blockReg (bh o : Nat) : Reg :=
  if o ≤ 0x80 then .bhReg bh (o / 8)
  else if 0x1000 ≤ o ∧ o < 0x1400 then .window bh ((o - 0x1000) / 16) (o / 8 % 2)
  else if 0x2000 ≤ o ∧ o < 0x2400 then .mig bh ((o - 0x2000) / 16) (o / 8 % 2)
  else if 0x3000 ≤ o ∧ o < 0x3080 then .dead bh ((o - 0x3000) / 8)
  else if 0x20000 ≤ o ∧ o < 0x40000 then .errlog bh ((o - 0x20000) / 32) (o % 32 / 8)
  else if 0x100000 ≤ o then cluReg (bh * 4 + (o - 0x100000) / 0x40000) ((o - 0x100000) % 0x40000)
  else .none

/-- The register at an offset of the 64 MiB space of a device. -/
def regAt (dev off : Nat) : Reg :=
  if off < 0x10000 then
    (if off = 0 then .hsem else if off = 8 then .bootstat else if off = 0x10 then .pcap else if off = 0x18 then .pwrmeas
     else if 0x40 ≤ off ∧ off < 0xA0 then .idpub ((off - 0x40) / 8) else .none)
  else if off < 0x30000 then portReg (dev * 2 + (off - 0x10000) / 0x10000) (off % 0x10000)
  else if off < 0x1000000 then .none
  else blockReg (dev * 32 + (off - 0x1000000) / 0x200000) ((off - 0x1000000) % 0x200000)

/-! ### Reads (R432) -/

/-- 8 bytes of a wide value. -/
def word8 (v i : Nat) : W64 := BitVec.ofNat 64 (v >>> (64 * i))

/-- CKSTAT (Table 18-2). -/
def ckstat (s : State) (bh : Nat) : W64 :=
  let b := s.bu bh
  let tail : BitVec 30 := b.cksRoot ++ (s.chanOf (devOfBh bh) (s.partOf bh)).nstop
  match s.partOf? bh with
  | none => 0#2 ++ (tail ++ 0xFFFFFFFF#32)
  | some q =>
    let c := s.chanOf (devOfBh bh) q
    (BitVec.ofBool c.insync ++ BitVec.ofBool (c.stop && s.running bh)) ++ (tail ++ c.meas)

/-- PORTSTAT (Table 22-8). -/
def portstat (s : State) (bh : Nat) : W64 :=
  let l := s.li bh
  l.up ++ (l.width ++ (BitVec.ofBool l.ks ++ (0#3 ++ (l.lanes ++ (l.retrain ++ (l.replay ++ l.authf))))))

/-- PWR (Table 23-9). -/
def pwrWord (s : State) (bh : Nat) : W64 :=
  let b := s.bu bh
  b.pwrReq ++ (b.pwrSt ++ (0#4 ++ (b.temp ++ (BitVec.ofBool (b.thr || (s.de (devOfBh bh)).lowered) ++ (BitVec.ofBool b.trip ++
    (0#30 ++ b.power))))))

/-- A register of a bulkhead block below 0x88. -/
def readBh (s : State) (bh i : Nat) : W64 :=
  let b := s.bu bh
  match i with
  | 0 => b.bhpart ||| BitVec.ofNat 64 b.reset.toNat
  | 1 => b.pcfg
  | 2 => b.proot
  | 3 => pwrWord s bh
  | 4 => portstat s bh
  | 5 => b.trctl
  | 6 => b.trwp
  | 7 => b.rpctl
  | 8 => b.sideBase
  | 9 => b.logRead
  | 10 => b.lost
  | 11 => b.corrected.setWidth 64
  | 12 => b.negligible.setWidth 64
  | 13 => ckstat s bh
  | 14 => b.plpool
  | 15 => b.pager
  | _ => b.attrBase

/-- A forwarding entry (Table 19-8). -/
def fwdWord (w : Fwd) : Nat :=
  2 ^ 127 + w.ocore % 256 * 2 ^ 119 + w.orid % 65536 * 2 ^ 103 + w.ncoord % 2 ^ 27 * 2 ^ 76 + w.nrid % 65536 * 2 ^ 60 +
    w.pend % 512 * 2 ^ 51 + w.born.toNat
/-- A delay-table entry (Table 21-8). -/
def delayWord (d : Delay) : Nat :=
  2 ^ 255 + d.src * 4 % 2 ^ 27 * 2 ^ 228 + d.n % 2 ^ 32 * 2 ^ 196 + d.transit % 2 ^ 48 * 2 ^ 148 + d.queue % 2 ^ 48 * 2 ^ 100 +
    d.run % 2 ^ 48 * 2 ^ 52 + d.maxtr % 2 ^ 32 * 2 ^ 20 + d.neg % 2 ^ 20

/-- Registers that read as zero in the unprivileged view: those of which a map says that they are read in the privileged
view (R374). -/
def Reg.shielded : Reg → Bool
  | .fwd .. => true
  | _ => false

/-- All bits of an entry of a core's delay table. -/
def delayEntry (s : State) (core e : Nat) : Nat := (((s.co core).delays.find? fun x => x.1 == e).map fun x => delayWord x.2).getD 0

/-- What an offset of the management space holds for a port (R432); an offset that nothing names reads as zero. A delay-table entry
reads as it was when the port read its first word, until the entry is cleared (R403). (log 85, DESIGN CHOICE) -/
def regRead (s : State) (p off : Nat) : W64 :=
  let dev := p / 2
  let d := s.de dev
  let r := regAt dev off
  if r.shielded && !holder s p then 0
  else match r with
  | .hsem => 0#16 ++ (d.gen ++ (0#29 ++ (BitVec.ofBool d.last ++ d.owner)))
  | .bootstat => 0#16 ++ (d.imgver ++ (BitVec.ofBool d.done ++ (BitVec.ofBool d.copy ++ (BitVec.ofBool d.idok ++ (0#21 ++ d.code)))))
  | .pcap => d.pcap.setWidth 64
  | .pwrmeas => d.pwrmeas.setWidth 64
  | .idpub i => word8 (leNat (beBytes 96 d.idpub.toNat)) i
  | .mail q i => let x := s.po q
                 (match i with | 0 => x.target | 1 => x.entry | 2 => x.args | _ => x.msg3)
  | .mbxctl q => 0#1 ++ (BitVec.ofBool (s.po q).mbxBusy ++ (0#58 ++ (s.po q).mbxStatus))
  | .hwmask q => (s.po q).hwmask.setWidth 64
  | .mstat q => let x := s.po q
                0#59 ++ (BitVec.ofBool x.nres ++ (BitVec.ofBool x.bnc ++ (BitVec.ofBool x.hole ++ (BitVec.ofBool x.ve ++
                  BitVec.ofBool (holder s q)))))
  | .attctl q => 0#61 ++ ((s.po q).attStatus ++ BitVec.ofBool (s.po q).attDone)
  | .attnonce q i => word8 (s.po q).nonce.toNat i
  | .armctl q => let x := s.po q
                 0#1 ++ (BitVec.ofBool x.armBusy ++ (x.armStatus ++ (x.armPart ++ (x.armGang ++ (BitVec.ofBool x.armDis ++
                   (0#10 ++ x.armRec))))))
  | .attrep q i => word8 (s.po q).rep.toNat i
  | .bhReg b i => readBh s b i
  | .window b i h => word8 (Map.get 0 (s.bu b).windows i).toNat h
  | .mig b i h => word8 (Map.get 0 (s.bu b).migs i).toNat h
  | .dead b i => (s.bu b).deadMap.foldl (fun v n => if n / 64 = i then v ||| (1#64 <<< (n % 64)) else v) 0
  | .errlog b n i => word8 (leNat (Map.get {} (s.bu b).log n).bytes) i
  | .bar c n => let b := Map.get {} (s.cl c).bars n
                0#16 ++ (b.epi ++ BitVec.ofNat 32 (b.arr % 512 * 65536 + b.count % 512))
  | .pair c n => Map.get 0 (s.cl c).pairs n
  | .trapvec c => (s.cl c).trapvec
  | .brk c n => Map.get 0 (s.cl c).brk n
  | .stopreq c => (s.cl c).stopreq
  | .fwd c n h => word8 ((((s.cl c).fwd.find? fun e => e.1 == n).map fun e => fwdWord e.2).getD 0) h
  | .delay k e i => word8 ((((s.po p).delayRead.filter fun d => i != 0 && d.1 == k && d.2.1 == e).map (·.2.2)).getD (delayEntry s k e)) i
  | .none => 0

/-- Whether an access of a port to its management space is served: its link is up, it is 8 bytes, aligned and inside the space, and
before boot is done it is to the device block (R431, R439). Any other completes as an unsupported request. -/
def served (s : State) (p off : Nat) : Bool :=
  (s.po p).up && off % 8 == 0 && decide (off < 0x4000000) && (decide (off < 0x10000) || (s.de (p / 2)).done)

/-- A management read of a port: its value, none for an unsupported request; the first word of a delay-table entry takes the entry
whole. (log 85, DESIGN CHOICE) -/
def mgmtRead (p off : Nat) (s : State) : State × Option W64 :=
  if !served s p off then (s, none)
  else
    let s := match regAt (p / 2) off with
      | .delay k e 0 => s.modPo p fun q => { q with delayRead := some (k, e, delayEntry s k e) }
      | _ => s
    (s, some (regRead s p off))

/-! ### Writes (R431, R432) -/

/-- A port's own write of a part of a wide register: the parts below the last are kept, and at the last the whole value,
low part first, is given to `body` (R431). -/
def wide (p off i n : Nat) (v : W64) (body : Nat → State → State) (s : State) : State :=
  if i + 1 < n then s.modPo p fun q => { q with halves := Map.set q.halves off v }
  else
    let part (j : Nat) : Nat := (Map.get 0 (s.po p).halves (off - 8 * (n - 1) + 8 * j)).toNat
    body (((List.range (n - 1)).map fun j => part j * 2 ^ (64 * j)).sum + v.toNat * 2 ^ (64 * (n - 1))) s

/-- A write of a bulkhead register below 0x88 by a privileged port. -/
def writeBh (p bh i : Nat) (v : W64) (s : State) : State :=
  match i with
  | 0 => writeBhpart p bh v s
  | 1 => writePcfg p bh v s
  | 2 => writeProot p bh v s
  | 3 => writePwr p bh v s
  | 4 => writePortstat bh v s
  | 5 => writeTrctl bh v s
  | 6 => writeTrwp bh s
  | 7 => writeRpctl p bh v s
  | 8 => s.modBu bh fun b => { b with sideBase := v }
  | 9 => s.modBu bh fun b => { b with logRead := v }
  | 13 => writeCkstat p bh v s
  | 14 => writePlpool p bh v s
  | 15 => writePager p bh v s
  | 16 => s.modBu bh fun b => { b with attrBase := v }
  | _ => s

/-- Whether a register has no field that software writes. -/
def Reg.readOnly : Reg → Bool
  | .bootstat | .pwrmeas | .idpub _ | .attrep .. | .errlog .. | .fwd .. => true
  | .bhReg _ i => 10 ≤ i && i ≤ 12
  | .delay _ _ i => i != 3
  | _ => false

/-- Whether both views may write it (Tables 23-2 to 23-4, R433, R441). -/
def Reg.openTo : Reg → Bool
  | .hsem | .mail .. | .mbxctl _ | .mstat _ | .attctl _ | .attnonce .. => true
  | _ => false

/-- A write that a port may make: what it does to the register it names. (log 85, DESIGN CHOICE) -/
def writeReg (p off : Nat) (v : W64) (s : State) : Reg → State
  | .hsem =>
    if v.extractLsb' 0 2 = portCode p then nextOf (execHsemAcquire p false s) s
    else if v.extractLsb' 0 2 = 0 then nextOf (execHsemRelease p s) s else viewRule p s
  | .pcap => judgeCap (p / 2) (s.modDe (p / 2) fun d => { d with pcap := v.extractLsb' 0 16 })
  | .mail q 0 => s.modPo q fun x => { x with target := v }
  | .mail q 1 => s.modPo q fun x => { x with entry := v }
  | .mail q 2 => s.modPo q fun x => { x with args := v }
  | .mail q _ => s.modPo q fun x => { x with msg3 := v }
  | .mbxctl q => if v.getLsbD 63 then mailGo p q s else s
  | .hwmask q => s.modPo q fun x => { x with hwmask := v.extractLsb' 0 24 }
  | .mstat q => s.modPo q fun x => { x with nres := x.nres && !v.getLsbD 4, bnc := x.bnc && !v.getLsbD 3
                                            hole := x.hole && !v.getLsbD 2, ve := x.ve && !v.getLsbD 1 }
  | .attctl q => if v.getLsbD 63 then attestGo p q s else s
  | .attnonce q i => wide p off i 6 v (fun n s => s.modPo q fun x => { x with nonce := BitVec.ofNat 384 n }) s
  | .armctl q =>
    if !v.getLsbD 63 then s.modPo q (armFields v)
    else if v.getLsbD 22 then armctlDisarm p q v s else armctlArm p q v s
  | .bhReg b i => writeBh p b i v s
  | .window b i h => wide p off h 2 v (fun n s => writeWindow p b i (BitVec.ofNat 128 n) s) s
  | .mig b i h => wide p off h 2 v (fun n s => writeMig p b i (BitVec.ofNat 128 n) s) s
  | .dead b i => s.modBu b fun x => { x with deadMap := x.deadMap.filter fun n => n / 64 != i || v.getLsbD (n % 64) }
  | .bar c n => writeBar p c n v s
  | .pair c n => writePair p c n v s
  | .trapvec c => writeTrapvec p c v s
  | .brk c n => writeBrk c n v s
  | .stopreq c => writeStopreq c v s
  | .delay k e i =>
    if i ≠ 3 then s
    else if !v.getLsbD 63 then
      (s.modCo k fun x => { x with delays := x.delays.filter fun (d : Nat × Delay) => d.1 != e }).modDe (p / 2) fun d =>
        { d with ports := d.ports.map fun (q : Port) => { q with delayRead := q.delayRead.filter fun d => d.1 != k || d.2.1 != e } }
    else if (s.co k).delays.any fun (d : Nat × Delay) => d.1 == e then s
    else s.modCo k fun x => { x with delays := (e, { src := 0 }) :: x.delays }
  | .bootstat | .pwrmeas | .idpub _ | .attrep .. | .errlog .. | .fwd .. | .none => s

/-- MGMT_REGISTER_WRITE: an 8-byte write at an offset of the management space. An access that is not aligned, or lies outside
the space, completes as an unsupported request; before boot is done only the device block is served (R431, R439). -/
def execMgmtRegisterWrite (p off : Nat) (v : W64) (s : State) : Out :=
  .next (if !served s p off then s
  else
    let r := regAt (p / 2) off
    if r = .none ∨ (r.shielded ∧ !holder s p) then viewRule p s
    else if r.readOnly then s
    else if r.openTo ∨ holder s p then writeReg p off v s r
    else match r with
      | .bhReg b 3 => viewRule p (s.modBu b fun b => { b with trip := b.trip && !v.getLsbD 46 })
      | _ => viewRule p s)

end Sys2Proof.Machine
end

