-- ==== Sys2Proof/Machine/Vector.lean ====
section
/-! DEFINITION. Vector.lean: the vector integer (R263 to R276), floating-point (R277 to R282) and quantisation (R283 to R286)
instructions. -/

namespace Sys2Proof.Machine

/-! ### Integer lanes (R265) -/

/-- A lane's result from its extended sources: f takes N, A and B. N is that of the widest operand of d, a and b. -/
def vbinary (f : Nat → Nat → Nat → Nat) (g : Guard) (o : Opnds) (s : State) : Out :=
  vectorR g o.len (fun sel r =>
    let n := o.n
    r.putLanes o.d sel fun l =>
      f n (ext o.ty (o.aLane r l) (4 * o.a.width) n) (ext o.ty (o.b.lane r l) (4 * o.b.width) n) % 2 ^ n) s

/-- The same with C, the extended c. -/
def vternary (f : Nat → Nat → Nat → Nat → Nat) (g : Guard) (o : Opnds) (s : State) : Out :=
  vectorR g o.len (fun sel r =>
    let n := max o.n (4 * o.c.width)
    r.putLanes o.d sel fun l =>
      f n (ext o.ty (o.aLane r l) (4 * o.a.width) n) (ext o.ty (o.b.lane r l) (4 * o.b.width) n)
        (ext o.ty (readLane r.vec l o.c) (4 * o.c.width) n) % 2 ^ n) s

/-- A shift: h is the lane's b zero-extended from its own width. -/
def vshift (f : Nat → Nat → Nat → Nat) (g : Guard) (o : Opnds) (s : State) : Out :=
  vectorR g o.len (fun sel r =>
    let n := o.n
    r.putLanes o.d sel fun l =>
      f n (ext o.ty (o.aLane r l) (4 * o.a.width) n) (o.b.lane r l) % 2 ^ n) s

/-- A unary instruction at the wider of d and a (R267). -/
def vunary (f : Nat → Nat → Nat) (g : Guard) (o : Opnds) (s : State) : Out :=
  vectorR g o.len (fun sel r =>
    let n := 4 * max o.d.width o.a.width
    r.putLanes o.d sel fun l => f n (ext o.ty (o.aLane r l) (4 * o.a.width) n) % 2 ^ n) s

/-- A choice that is signed under sint (R265). -/
def bySign (ty : Nat) (f h : Nat → Nat → Nat → Nat) : Nat → Nat → Nat → Nat := if ty = 0 then f else h

/-- The rounding shift right, ties upward (R266). -/
def vsraN (ty n a h : Nat) : Nat :=
  let x : Int := if ty = 0 then sgn a n else a
  wrap n (if h = 0 then x else (x + 2 ^ (h - 1)) / 2 ^ h)

def execVadd (g : Guard) (o : B3) (s : State) : Out := vbinary addN g (ofB3V o) s
def execVaddExt (g : Guard) (x : XA) (s : State) : Out := vbinary addN g (ofXA x) s
def execVsub (g : Guard) (o : B3) (s : State) : Out := vbinary subN g (ofB3V o) s
def execVsubExt (g : Guard) (x : XA) (s : State) : Out := vbinary subN g (ofXA x) s
def execVmul (g : Guard) (o : B3) (s : State) : Out := vbinary mulN g (ofB3V o) s
def execVmulExt (g : Guard) (x : XA) (s : State) : Out := vbinary mulN g (ofXA x) s
def execVmulh (g : Guard) (o : B3) (s : State) : Out := vbinary mulhN g (ofB3V o) s
def execVmulhExt (g : Guard) (x : XA) (s : State) : Out := vbinary (bySign x.ty.toNat mulhN mulhuN) g (ofXA x) s
def execVmad (g : Guard) (o : B3) (s : State) : Out := vternary (fun n a b c => (a * b + c) % 2 ^ n) g (ofB3V o) s
def execVmadExt (g : Guard) (x : XA) (s : State) : Out := vternary (fun n a b c => (a * b + c) % 2 ^ n) g (ofXA x) s
def execVmin (g : Guard) (o : B3) (s : State) : Out := vbinary minN g (ofB3V o) s
def execVminExt (g : Guard) (x : XA) (s : State) : Out := vbinary (bySign x.ty.toNat minN minuN) g (ofXA x) s
def execVmax (g : Guard) (o : B3) (s : State) : Out := vbinary maxN g (ofB3V o) s
def execVmaxExt (g : Guard) (x : XA) (s : State) : Out := vbinary (bySign x.ty.toNat maxN maxuN) g (ofXA x) s
def execVabs (g : Guard) (o : BU) (s : State) : Out := vunary absN g (ofBUV o) s
def execVabsExt (g : Guard) (x : XA) (s : State) : Out := vunary (if x.ty = 0 then absN else fun _ a => a) g (ofXA x) s
def execVneg (g : Guard) (o : BU) (s : State) : Out := vunary negN g (ofBUV o) s
def execVnegExt (g : Guard) (x : XA) (s : State) : Out := vunary negN g (ofXA x) s
def execVand (g : Guard) (o : B3) (s : State) : Out := vbinary andN g (ofB3V o) s
def execVandExt (g : Guard) (x : XA) (s : State) : Out := vbinary andN g (ofXA x) s
def execVor (g : Guard) (o : B3) (s : State) : Out := vbinary orN g (ofB3V o) s
def execVorExt (g : Guard) (x : XA) (s : State) : Out := vbinary orN g (ofXA x) s
def execVxor (g : Guard) (o : B3) (s : State) : Out := vbinary xorN g (ofB3V o) s
def execVxorExt (g : Guard) (x : XA) (s : State) : Out := vbinary xorN g (ofXA x) s
def execVshl (g : Guard) (o : B3) (s : State) : Out := vshift shlN g (ofB3V o) s
def execVshlExt (g : Guard) (x : XA) (s : State) : Out := vshift shlN g (ofXA x) s
def execVshr (g : Guard) (o : B3) (s : State) : Out := vshift shrN g (ofB3V o) s
def execVshrExt (g : Guard) (x : XA) (s : State) : Out := vshift shrN g (ofXA x) s
def execVsar (g : Guard) (o : B3) (s : State) : Out := vshift sarN g (ofB3V o) s
def execVsarExt (g : Guard) (x : XA) (s : State) : Out := vshift sarN g (ofXA x) s
def execVsra (g : Guard) (o : B3) (s : State) : Out := vshift (vsraN 0) g (ofB3V o) s
def execVsraExt (g : Guard) (x : XA) (s : State) : Out := vshift (vsraN x.ty.toNat) g (ofXA x) s
def execVmov (g : Guard) (o : BU) (s : State) : Out := vunary (fun _ a => a) g (ofBUV o) s
def execVmovExt (g : Guard) (x : XA) (s : State) : Out := vunary (fun _ a => a) g (ofXA x) s

/-- A clamped value and whether it clamped. -/
def saturate (signed : Bool) (n : Nat) (i : Int) : Nat × Bool :=
  if i < intLo signed n then (wrap n (intLo signed n), true)
  else if intHi signed n < i then (wrap n (intHi signed n), true)
  else (wrap n i, false)

/-- Writes the selected lanes from results with flags, and raises the OR of the flags (R263). -/
def Regs.putFlagged (r : Regs) (d : Rng) (sel : BitVec 8) (f : Nat → FRes) : Regs :=
  (List.range 8).foldl (fun q l => if sel.getLsbD l then (q.putLane d l (f l).1).raise (f l).2 else q) r

/-- vsat (R268); a clamp raises NX with OF (Table 13-6). (log 70, DEDUCED) -/
def execVsat (g : Guard) (x : XA) (s : State) : Out :=
  let o := ofXA x
  vectorR g o.len (fun sel r =>
    r.putFlagged o.d sel fun l =>
      let a := o.aLane r l
      let v := saturate (o.ty == 0) (4 * o.d.width) (if o.ty = 0 then sgn a (4 * o.a.width) else a)
      (v.1, { of := v.2, nx := v.2 })) s
/-- vclamp (R268). -/
def execVclamp (g : Guard) (x : XA) (s : State) : Out :=
  vternary (fun n a b c => bySign x.ty.toNat minN minuN n (bySign x.ty.toNat maxN maxuN n a b) c) g (ofXA x) s

/-- vsext and vzext: n from the lane's b (R204, R269). -/
def vextend (signed : Bool) (g : Guard) (o : Opnds) (s : State) : Out :=
  vectorR g o.len (fun sel r => r.putLanes o.d sel fun l =>
    let n := min (o.b.lane r l) (4 * o.a.width)
    let v := o.aLane r l % 2 ^ n
    if n = 0 then 0 else if signed then wrap 64 (sgn v n) else v) s
def execVsext (g : Guard) (x : XA) (s : State) : Out := vextend true g (ofXA x) s
def execVzext (g : Guard) (x : XA) (s : State) : Out := vextend false g (ofXA x) s

/-- The bits of the lanes for which a test holds. -/
def laneBits (f : Nat → Bool) : BitVec 8 :=
  BitVec.ofNat 8 ((List.range 8).foldl (fun v l => if f l then v + 2 ^ l else v) 0)

/-- vcmp (R270). -/
def execVcmp (g : Guard) (x : XA) (s : State) : Out :=
  let o := ofXA x
  vectorR g o.len (fun sel r =>
    let n := 4 * max o.a.width o.b.width
    let c : Cond := match (x.c.bits.extractLsb' 12 4).toNat with
      | 0 => .eq
      | 1 => .ne
      | 2 => if o.ty = 0 then .lt else .ltu
      | _ => if o.ty = 0 then .le else .leu
    r.setKPair (x.d.start.toNat % 8) (x.d.start.toNat / 8 % 8) sel (laneBits fun l =>
      c.holds n (ext o.ty (o.aLane r l) (4 * o.a.width) n) (ext o.ty (o.b.lane r l) (4 * o.b.width) n))) s

/-- vsel (R271). -/
def execVsel (g : Guard) (x : XA) (s : State) : Out :=
  let o := ofXA x
  vectorR g o.len (fun sel r =>
    let n := o.n
    r.putLanes o.d sel fun l =>
      if (r.k (x.c.start.toNat % 8)).getLsbD l then ext o.ty (o.aLane r l) (4 * o.a.width) n
      else ext o.ty (o.b.lane r l) (4 * o.b.width) n) s

/-- vbcast (R272). -/
def execVbcast (g : Guard) (x : XA) (s : State) : Out :=
  let o := ofXA x
  vectorR g o.len (fun sel r => r.putLanes o.d sel fun _ => o.b.ext o.ty (4 * max o.d.width o.b.width) r) s

/-- vext (R273). -/
def execVext (g : Guard) (x : XA) (s : State) : Out :=
  let o := ofXA x
  vectorR g o.len (fun sel r =>
    let j := readSlices r.scalar o.c % 8
    let n := o.n
    r.putLanes o.d sel fun l =>
      if l + j < 8 then ext o.ty (o.aLane r (l + j)) (4 * o.a.width) n
      else ext o.ty (o.b.lane r (l + j - 8)) (4 * o.b.width) n) s

/-- vperm (R274). -/
def vpermute (g : Guard) (o : Opnds) (s : State) : Out :=
  vectorR g o.len (fun sel r =>
    let n := o.n
    r.putLanes o.d sel fun l => ext o.ty (o.aLane r (o.b.lane r l % 8)) (4 * o.a.width) n) s
def execVperm (g : Guard) (o : B3) (s : State) : Out := vpermute g (ofB3V o) s
def execVpermExt (g : Guard) (x : XA) (s : State) : Out := vpermute g (ofXA x) s

/-- vdot (R275); a clamp raises NX with OF (Table 13-6). (log 70, DEDUCED) -/
def execVdot (g : Guard) (x : XA) (s : State) : Out :=
  let o := ofXA x
  vectorR g o.len (fun sel r =>
    let w := if x.c.bits.getLsbD 0 then 4 else 8
    let val (v n : Nat) : Int := if o.ty = 0 then sgn v n else v
    r.putFlagged o.d sel fun l =>
      let a := o.aLane r l
      let b := o.b.lane r l
      let t : Int := (List.range (32 / w)).foldl (fun t i =>
        t + val (a >>> (w * i) % 2 ^ w) w * val (b >>> (w * i) % 2 ^ w) w) (val (readLane r.vec l o.d) 32)
      if x.c.bits.getLsbD 1 then let v := saturate (o.ty == 0) 32 t; (v.1, { of := v.2, nx := v.2 }) else (wrap 32 t, {})) s

/-! ### The reduction tree (R261) -/

/-- One level of the tree; an absent input passes the other. -/
def pairUp {α : Type} (f : α → α → α) : List (Option α) → List (Option α)
  | a :: b :: l => (match a, b with
    | some x, some y => some (f x y)
    | some x, none => some x
    | none, y => y) :: pairUp f l
  | l => l
/-- The tree over eight lanes. -/
def tree {α : Type} (f : α → α → α) (l : List (Option α)) : Option α := (pairUp f (pairUp f (pairUp f l))).head?.join

/-- vred (R276). -/
def execVred (g : Guard) (x : XA) (s : State) : Out :=
  let o := ofXA x
  vectorR g o.len (fun sel r =>
    let n := 4 * max o.d.width o.a.width
    let f := match (x.c.bits.extractLsb' 0 2).toNat with
      | 0 => addN n
      | 1 => bySign o.ty minN minuN n
      | _ => bySign o.ty maxN maxuN n
    match tree f ((List.range 8).map fun l =>
      if sel.getLsbD l then some (ext o.ty (o.aLane r l) (4 * o.a.width) n) else none) with
    | some v => r.put o.d v
    | none => r) s

/-! ### Floating point (R277 to R282) -/

/-- A binary floating-point instruction. -/
def vfbin (f : Fmt → Nat → FVal → FVal → FRes) (g : Guard) (ty : Nat) (o : Opnds) (s : State) : Out :=
  vectorR g o.len (fun sel r =>
    let m := fmtOf ty
    r.putFlagged o.d sel fun l => f m r.rm (m.decode (o.aLane r l)) (m.decode (o.b.lane r l))) s
def vfter (g : Guard) (ty : Nat) (o : Opnds) (s : State) : Out :=
  vectorR g o.len (fun sel r =>
    let m := fmtOf ty
    r.putFlagged o.d sel fun l =>
      fmaV m r.rm (m.decode (o.aLane r l)) (m.decode (o.b.lane r l)) (m.decode (readLane r.vec l o.c))) s
def vfun (f : Fmt → Nat → FVal → FRes) (g : Guard) (ty : Nat) (o : Opnds) (s : State) : Out :=
  vectorR g o.len (fun sel r =>
    let m := fmtOf ty
    r.putFlagged o.d sel fun l => f m r.rm (m.decode (o.aLane r l))) s

def fsubV (f : Fmt) (rm : Nat) (a b : FVal) : FRes := faddV f rm a (fnegV b)

def execVfadd (g : Guard) (o : B3) (s : State) : Out := vfbin faddV g 2 (ofB3V o) s
def execVfaddExt (g : Guard) (x : XA) (s : State) : Out := vfbin faddV g x.ty.toNat (ofXA x) s
def execVfsub (g : Guard) (o : B3) (s : State) : Out := vfbin fsubV g 2 (ofB3V o) s
def execVfsubExt (g : Guard) (x : XA) (s : State) : Out := vfbin fsubV g x.ty.toNat (ofXA x) s
def execVfmul (g : Guard) (o : B3) (s : State) : Out := vfbin fmulV g 2 (ofB3V o) s
def execVfmulExt (g : Guard) (x : XA) (s : State) : Out := vfbin fmulV g x.ty.toNat (ofXA x) s
def execVfma (g : Guard) (o : B3) (s : State) : Out := vfter g 2 (ofB3V o) s
def execVfmaExt (g : Guard) (x : XA) (s : State) : Out := vfter g x.ty.toNat (ofXA x) s
def execVfrcp (g : Guard) (o : BU) (s : State) : Out := vfun frcpV g 2 (ofBUV o) s
def execVfrcpExt (g : Guard) (x : XA) (s : State) : Out := vfun frcpV g x.ty.toNat (ofXA x) s
def execVfrsq (g : Guard) (o : BU) (s : State) : Out := vfun frsqV g 2 (ofBUV o) s
def execVfrsqExt (g : Guard) (x : XA) (s : State) : Out := vfun frsqV g x.ty.toNat (ofXA x) s
def execVfexp2 (g : Guard) (o : BU) (s : State) : Out := vfun fexp2V g 2 (ofBUV o) s
def execVfexp2Ext (g : Guard) (x : XA) (s : State) : Out := vfun fexp2V g x.ty.toNat (ofXA x) s
def execVflog2 (g : Guard) (o : BU) (s : State) : Out := vfun flog2V g 2 (ofBUV o) s
def execVflog2Ext (g : Guard) (x : XA) (s : State) : Out := vfun flog2V g x.ty.toNat (ofXA x) s

/-- vfmin and vfmax act on patterns (R278). -/
def vfpick (mx : Bool) (g : Guard) (ty : Nat) (o : Opnds) (s : State) : Out :=
  vectorR g o.len (fun sel r => r.putFlagged o.d sel fun l => fminmax (fmtOf ty) mx (o.aLane r l) (o.b.lane r l)) s
def execVfmin (g : Guard) (o : B3) (s : State) : Out := vfpick false g 2 (ofB3V o) s
def execVfminExt (g : Guard) (x : XA) (s : State) : Out := vfpick false g x.ty.toNat (ofXA x) s
def execVfmax (g : Guard) (o : B3) (s : State) : Out := vfpick true g 2 (ofB3V o) s
def execVfmaxExt (g : Guard) (x : XA) (s : State) : Out := vfpick true g x.ty.toNat (ofXA x) s

/-- vfabs clears the sign bit, vfneg inverts it (R279). -/
def vfsign (neg : Bool) (g : Guard) (ty : Nat) (o : Opnds) (s : State) : Out :=
  vectorR g o.len (fun sel r =>
    let b := 2 ^ ((fmtOf ty).width - 1)
    r.putLanes o.d sel fun l => let a := o.aLane r l; if neg then a ^^^ b else a % b) s
def execVfabs (g : Guard) (o : BU) (s : State) : Out := vfsign false g 2 (ofBUV o) s
def execVfabsExt (g : Guard) (x : XA) (s : State) : Out := vfsign false g x.ty.toNat (ofXA x) s
def execVfneg (g : Guard) (o : BU) (s : State) : Out := vfsign true g 2 (ofBUV o) s
def execVfnegExt (g : Guard) (x : XA) (s : State) : Out := vfsign true g x.ty.toNat (ofXA x) s

/-- A floating-point condition and its NV (R280). -/
def fcond (c : Nat) (a b : FVal) : Bool × Bool :=
  let un := isNan a || isNan b
  let sig := isSig a || isSig b
  match c with
  | 0 => (!un && feqV a b, sig)
  | 1 => (un || !feqV a b, sig)
  | 2 => (!un && fltV a b, un)
  | 3 => (!un && (fltV a b || feqV a b), un)
  | 4 => (un, sig)
  | _ => (!un, sig)
def execVfcmp (g : Guard) (x : XA) (s : State) : Out :=
  let o := ofXA x
  vectorR g o.len (fun sel r =>
    let m := fmtOf o.ty
    let c := (x.c.bits.extractLsb' 12 4).toNat
    let v (l : Nat) := fcond c (m.decode (o.aLane r l)) (m.decode (o.b.lane r l))
    (r.setKPair (x.d.start.toNat % 8) (x.d.start.toNat / 8 % 8) sel (laneBits fun l => (v l).1)).raise
      { nv := (List.range 8).any fun l => sel.getLsbD l && (v l).2 }) s

/-- One conversion of vfcvt: source and destination type codes, widths in bits, mode, SAT, NOSAT (R281, Table 13-7). -/
def convertV (st sw dt dw rm : Nat) (sat nosat : Bool) (v : Nat) : FRes :=
  let fsat := if dt = 5 then !nosat else sat
  if st ≤ 1 then cvtIF (fmtOf dt) rm fsat (if st = 0 then sgn v sw else v)
  else
    let x := if st = 8 then e8m0Val v else (fmtOf st).decode v
    if dt ≤ 1 then cvtFI (dt == 0) dw rm x
    else if dt = 8 then cvtFE x
    else cvtFF (fmtOf st) (fmtOf dt) rm fsat x
def execVfcvt (g : Guard) (x : XA) (s : State) : Out :=
  let o := ofXA x
  vectorR g o.len (fun sel r =>
    let c := x.c.bits
    let rm := if c.getLsbD 4 then (c.extractLsb' 5 2).toNat else r.rm
    r.putFlagged o.d sel fun l =>
      convertV o.ty (4 * o.a.width) (c.extractLsb' 0 4).toNat (4 * o.d.width) rm (c.getLsbD 8) (c.getLsbD 7) (o.aLane r l)) s

/-- The class bit of a pattern (R282). -/
def classOf (f : Fmt) (v : Nat) : Nat :=
  let e := v / 2 ^ f.mb % 2 ^ f.eb
  match f.decode v with
  | .nan s => if s then 8 else 9
  | .inf s => if s then 0 else 7
  | .fin s m _ => if m = 0 then (if s then 3 else 4) else if e = 0 then (if s then 2 else 5) else (if s then 1 else 6)
def execVfclass (g : Guard) (x : XA) (s : State) : Out :=
  let o := ofXA x
  vectorR g o.len (fun sel r => r.putLanes o.d sel fun l => 2 ^ classOf (fmtOf o.ty) (o.aLane r l)) s

/-! ### Quantisation (R283, R284) -/

/-- The code that vqcb gives a value under a scale. -/
def quantise (cb : Nat) (v : FVal) (b : Nat) : FRes :=
  if isNan v || b == 0xFF then (0, nvOnly)
  else
    let (i, nx) := nearest cb (scaleV v (127 - (b : Int)))
    (i, { nx := nx })

/-- vqcb: the codebook of bank n is read once at issue, as ld reads it (R96, R283, R286): a core-side watchpoint on it traps
(R336), another layout than 0x17 traps, and its errors are reported as a load's. -/
def execVqcb (g : Guard) (x : XA) (s : State) : Out :=
  let o := ofXA x
  vectorI g o.len (fun sel s =>
    let u := s.cur
    let cb := ((s.bfmt (coreOf u) (x.c.bits.extractLsb' 0 4).toNat).extractLsb' 51 13).toNat * 64
    let p : Piece := { va := 2 ^ 60 + cb, pa := spAddr (coreOf u) cb, n := 32 }
    match watched s.me .r p.va 32 with
    | some b => trap 0x08 (BitVec.ofNat 64 b) s
    | none =>
      if (s.bfmt (coreOf u) (cb / 0x8000)).extractLsb' 0 8 ≠ 0x17 then trap 0x0E (BitVec.ofNat 64 cb) s
      else if !atOnce s u [p] false then s
      else
        let r := readPieces (s.agent u 0) [p] s
        let noted := noteRead (s.act u).reactor (s.act u).q.tag r.neg r.bnd r.st
        if r.sev = 4 then (if s.awaits u then s else cancelAct u noted)
        else if r.sev = 3 then (if s.awaits u then s else trap 0x07 (BitVec.ofNat 64 r.at3) noted)
        else
          let book := leNat (overlayPieces (s.act u).held [p] r.bytes)
          let scale (q : Regs) (l : Nat) : Nat := match o.b with
            | .lit v _ => v % 256
            | .reg b => if x.b.file = 1 then readLane q.vec l b else readSlices q.scalar b
          advance o.len (noted.modMe fun t =>
            { t with r := t.r.putFlagged o.d sel fun l =>
                quantise book ((fmtOf o.ty).decode (o.aLane t.r l)) (scale t.r l) })) s

/-- The code that a lane gives vbscale, and its flags (R284). -/
def blockCode (v : FVal) : FRes :=
  match v with
  | .nan s => (0xFF, { nv := s })
  | .inf _ => (0xFE, { of := true })
  | v => ((cvtFE v).1, {})
def execVbscale (g : Guard) (x : XA) (s : State) : Out :=
  let o := ofXA x
  vectorR g o.len (fun sel r =>
    let c (l : Nat) := blockCode ((fmtOf o.ty).decode (o.aLane r l))
    let ls := selLanes sel
    let top := ls.foldl (fun m l => max m (c l).1) (readSlices r.scalar o.d)
    ls.foldl (fun q l => q.raise (c l).2) (r.put o.d top)) s

/-- A lone selected lane goes through the tree unpaired; a NaN among lone lanes is delivered canonical, a signalling one with NV
(R251, R261, R277). -/
def lone (m : Fmt) (v : Nat) : FRes :=
  match m.decode v with
  | .nan s => (m.nanBits, { nv := s })
  | _ => (v, {})

/-- vfred (R285). -/
def execVfred (g : Guard) (x : XA) (s : State) : Out :=
  let o := ofXA x
  vectorR g o.len (fun sel r =>
    let m := fmtOf o.ty
    let node (a b : FRes) : FRes :=
      let v := match (x.c.bits.extractLsb' 0 2).toNat with
        | 0 => faddV m r.rm (m.decode a.1) (m.decode b.1)
        | 1 => fminmax m false a.1 b.1
        | _ => fminmax m true a.1 b.1
      (v.1, (a.2.or b.2).or v.2)
    match selLanes sel with
    | [l] => let v := lone m (o.aLane r l); (r.put o.d v.1).raise v.2
    | _ => match tree node ((List.range 8).map fun l => if sel.getLsbD l then some (o.aLane r l, {}) else none) with
      | some v => (r.put o.d v.1).raise v.2
      | none => r) s

end Sys2Proof.Machine
end

