-- ==== Sys2Proof/Machine/Dispatch.lean ====
section
/-! DEFINITION. Machine/Dispatch.lean: one arm per row of the opcode table, each a direct call of its meaning. -/

namespace Sys2Proof.Machine

def exec (i : Instr) (s : State) : Host.Outcome State Fault Refusal :=
  match i with
  | .nop g => Sys2Proof.Machine.execNop g s
  | .nopExt g x => Sys2Proof.Machine.execNopExt g x s
  | .br g off => Sys2Proof.Machine.execBr g off s
  | .brx g a => Sys2Proof.Machine.execBrx g a s
  | .brxExt g x => Sys2Proof.Machine.execBrxExt g x s
  | .call g off => Sys2Proof.Machine.execCall g off s
  | .callx g o => Sys2Proof.Machine.execCallx g o s
  | .callxExt g x => Sys2Proof.Machine.execCallxExt g x s
  | .ret g a => Sys2Proof.Machine.execRet g a s
  | .retExt g x => Sys2Proof.Machine.execRetExt g x s
  | .rep g x => Sys2Proof.Machine.execRep g x s
  | .done g => Sys2Proof.Machine.execDone g s
  | .doneExt g x => Sys2Proof.Machine.execDoneExt g x s
  | .iadd g o => Sys2Proof.Machine.execIadd g o s
  | .iaddExt g x => Sys2Proof.Machine.execIaddExt g x s
  | .isub g o => Sys2Proof.Machine.execIsub g o s
  | .isubExt g x => Sys2Proof.Machine.execIsubExt g x s
  | .imul g o => Sys2Proof.Machine.execImul g o s
  | .imulExt g x => Sys2Proof.Machine.execImulExt g x s
  | .imulh g o => Sys2Proof.Machine.execImulh g o s
  | .imulhExt g x => Sys2Proof.Machine.execImulhExt g x s
  | .imulhu g o => Sys2Proof.Machine.execImulhu g o s
  | .imulhuExt g x => Sys2Proof.Machine.execImulhuExt g x s
  | .idiv g o => Sys2Proof.Machine.execIdiv g o s
  | .idivExt g x => Sys2Proof.Machine.execIdivExt g x s
  | .idivu g o => Sys2Proof.Machine.execIdivu g o s
  | .idivuExt g x => Sys2Proof.Machine.execIdivuExt g x s
  | .irem g o => Sys2Proof.Machine.execIrem g o s
  | .iremExt g x => Sys2Proof.Machine.execIremExt g x s
  | .iremu g o => Sys2Proof.Machine.execIremu g o s
  | .iremuExt g x => Sys2Proof.Machine.execIremuExt g x s
  | .imin g o => Sys2Proof.Machine.execImin g o s
  | .iminExt g x => Sys2Proof.Machine.execIminExt g x s
  | .imax g o => Sys2Proof.Machine.execImax g o s
  | .imaxExt g x => Sys2Proof.Machine.execImaxExt g x s
  | .iminu g o => Sys2Proof.Machine.execIminu g o s
  | .iminuExt g x => Sys2Proof.Machine.execIminuExt g x s
  | .imaxu g o => Sys2Proof.Machine.execImaxu g o s
  | .imaxuExt g x => Sys2Proof.Machine.execImaxuExt g x s
  | .iabs g o => Sys2Proof.Machine.execIabs g o s
  | .iabsExt g x => Sys2Proof.Machine.execIabsExt g x s
  | .ineg g o => Sys2Proof.Machine.execIneg g o s
  | .inegExt g x => Sys2Proof.Machine.execInegExt g x s
  | .and g o => Sys2Proof.Machine.execAnd g o s
  | .andExt g x => Sys2Proof.Machine.execAndExt g x s
  | .or g o => Sys2Proof.Machine.execOr g o s
  | .orExt g x => Sys2Proof.Machine.execOrExt g x s
  | .xor g o => Sys2Proof.Machine.execXor g o s
  | .xorExt g x => Sys2Proof.Machine.execXorExt g x s
  | .andn g o => Sys2Proof.Machine.execAndn g o s
  | .andnExt g x => Sys2Proof.Machine.execAndnExt g x s
  | .orn g o => Sys2Proof.Machine.execOrn g o s
  | .ornExt g x => Sys2Proof.Machine.execOrnExt g x s
  | .shl g o => Sys2Proof.Machine.execShl g o s
  | .shlExt g x => Sys2Proof.Machine.execShlExt g x s
  | .shr g o => Sys2Proof.Machine.execShr g o s
  | .shrExt g x => Sys2Proof.Machine.execShrExt g x s
  | .sar g o => Sys2Proof.Machine.execSar g o s
  | .sarExt g x => Sys2Proof.Machine.execSarExt g x s
  | .rol g o => Sys2Proof.Machine.execRol g o s
  | .rolExt g x => Sys2Proof.Machine.execRolExt g x s
  | .clz g o => Sys2Proof.Machine.execClz g o s
  | .clzExt g x => Sys2Proof.Machine.execClzExt g x s
  | .ctz g o => Sys2Proof.Machine.execCtz g o s
  | .ctzExt g x => Sys2Proof.Machine.execCtzExt g x s
  | .popc g o => Sys2Proof.Machine.execPopc g o s
  | .popcExt g x => Sys2Proof.Machine.execPopcExt g x s
  | .sext g x => Sys2Proof.Machine.execSext g x s
  | .zext g x => Sys2Proof.Machine.execZext g x s
  | .bfx g x => Sys2Proof.Machine.execBfx g x s
  | .bfi g x => Sys2Proof.Machine.execBfi g x s
  | .mov g o => Sys2Proof.Machine.execMov g o s
  | .movExt g x => Sys2Proof.Machine.execMovExt g x s
  | .li g o => Sys2Proof.Machine.execLi g o s
  | .liExt g x => Sys2Proof.Machine.execLiExt g x s
  | .lea g o => Sys2Proof.Machine.execLea g o s
  | .leaExt g x => Sys2Proof.Machine.execLeaExt g x s
  | .sel g x => Sys2Proof.Machine.execSel g x s
  | .icmpEq g o => Sys2Proof.Machine.execIcmpEq g o s
  | .icmpEqExt g x => Sys2Proof.Machine.execIcmpEqExt g x s
  | .icmpNe g o => Sys2Proof.Machine.execIcmpNe g o s
  | .icmpNeExt g x => Sys2Proof.Machine.execIcmpNeExt g x s
  | .icmpLt g o => Sys2Proof.Machine.execIcmpLt g o s
  | .icmpLtExt g x => Sys2Proof.Machine.execIcmpLtExt g x s
  | .icmpLe g o => Sys2Proof.Machine.execIcmpLe g o s
  | .icmpLeExt g x => Sys2Proof.Machine.execIcmpLeExt g x s
  | .icmpLtu g o => Sys2Proof.Machine.execIcmpLtu g o s
  | .icmpLtuExt g x => Sys2Proof.Machine.execIcmpLtuExt g x s
  | .icmpLeu g o => Sys2Proof.Machine.execIcmpLeu g o s
  | .icmpLeuExt g x => Sys2Proof.Machine.execIcmpLeuExt g x s
  | .gop g x => Sys2Proof.Machine.execGop g x s
  | .gmov g x => Sys2Proof.Machine.execGmov g x s
  | .smov g x => Sys2Proof.Machine.execSmov g x s
  | .spill g x => Sys2Proof.Machine.execSpill g x s
  | .fill g x => Sys2Proof.Machine.execFill g x s
  | .iaddi g o => Sys2Proof.Machine.execIaddi g o s
  | .ld g x => Sys2Proof.Machine.execLd g x s
  | .st g x => Sys2Proof.Machine.execSt g x s
  | .vld g x => Sys2Proof.Machine.execVld g x s
  | .vst g x => Sys2Proof.Machine.execVst g x s
  | .amo g x => Sys2Proof.Machine.execAmo g x s
  | .acas g x => Sys2Proof.Machine.execAcas g x s
  | .famo g x => Sys2Proof.Machine.execFamo g x s
  | .mcas g x => Sys2Proof.Machine.execMcas g x s
  | .lenq g x => Sys2Proof.Machine.execLenq g x s
  | .pchase g x => Sys2Proof.Machine.execPchase g x s
  | .fence g x => Sys2Proof.Machine.execFence g x s
  | .wait g x => Sys2Proof.Machine.execWait g x s
  | .commit g x => Sys2Proof.Machine.execCommit g x s
  | .cvta g x => Sys2Proof.Machine.execCvta g x s
  | .pf g x => Sys2Proof.Machine.execPf g x s
  | .cwb g x => Sys2Proof.Machine.execCwb g x s
  | .send g x => Sys2Proof.Machine.execSend g x s
  | .sendr g x => Sys2Proof.Machine.execSendr g x s
  | .tnow g x => Sys2Proof.Machine.execTnow g x s
  | .tcur g x => Sys2Proof.Machine.execTcur g x s
  | .larm g x => Sys2Proof.Machine.execLarm g x s
  | .lpatch g x => Sys2Proof.Machine.execLpatch g x s
  | .lstat g x => Sys2Proof.Machine.execLstat g x s
  | .bar g x => Sys2Proof.Machine.execBar g x s
  | .vadd g o => Sys2Proof.Machine.execVadd g o s
  | .vaddExt g x => Sys2Proof.Machine.execVaddExt g x s
  | .vsub g o => Sys2Proof.Machine.execVsub g o s
  | .vsubExt g x => Sys2Proof.Machine.execVsubExt g x s
  | .vmul g o => Sys2Proof.Machine.execVmul g o s
  | .vmulExt g x => Sys2Proof.Machine.execVmulExt g x s
  | .vmulh g o => Sys2Proof.Machine.execVmulh g o s
  | .vmulhExt g x => Sys2Proof.Machine.execVmulhExt g x s
  | .vmad g o => Sys2Proof.Machine.execVmad g o s
  | .vmadExt g x => Sys2Proof.Machine.execVmadExt g x s
  | .vmin g o => Sys2Proof.Machine.execVmin g o s
  | .vminExt g x => Sys2Proof.Machine.execVminExt g x s
  | .vmax g o => Sys2Proof.Machine.execVmax g o s
  | .vmaxExt g x => Sys2Proof.Machine.execVmaxExt g x s
  | .vabs g o => Sys2Proof.Machine.execVabs g o s
  | .vabsExt g x => Sys2Proof.Machine.execVabsExt g x s
  | .vneg g o => Sys2Proof.Machine.execVneg g o s
  | .vnegExt g x => Sys2Proof.Machine.execVnegExt g x s
  | .vand g o => Sys2Proof.Machine.execVand g o s
  | .vandExt g x => Sys2Proof.Machine.execVandExt g x s
  | .vor g o => Sys2Proof.Machine.execVor g o s
  | .vorExt g x => Sys2Proof.Machine.execVorExt g x s
  | .vxor g o => Sys2Proof.Machine.execVxor g o s
  | .vxorExt g x => Sys2Proof.Machine.execVxorExt g x s
  | .vshl g o => Sys2Proof.Machine.execVshl g o s
  | .vshlExt g x => Sys2Proof.Machine.execVshlExt g x s
  | .vshr g o => Sys2Proof.Machine.execVshr g o s
  | .vshrExt g x => Sys2Proof.Machine.execVshrExt g x s
  | .vsar g o => Sys2Proof.Machine.execVsar g o s
  | .vsarExt g x => Sys2Proof.Machine.execVsarExt g x s
  | .vsra g o => Sys2Proof.Machine.execVsra g o s
  | .vsraExt g x => Sys2Proof.Machine.execVsraExt g x s
  | .vsat g x => Sys2Proof.Machine.execVsat g x s
  | .vclamp g x => Sys2Proof.Machine.execVclamp g x s
  | .vsext g x => Sys2Proof.Machine.execVsext g x s
  | .vzext g x => Sys2Proof.Machine.execVzext g x s
  | .vcmp g x => Sys2Proof.Machine.execVcmp g x s
  | .vsel g x => Sys2Proof.Machine.execVsel g x s
  | .vmov g o => Sys2Proof.Machine.execVmov g o s
  | .vmovExt g x => Sys2Proof.Machine.execVmovExt g x s
  | .vbcast g x => Sys2Proof.Machine.execVbcast g x s
  | .vext g x => Sys2Proof.Machine.execVext g x s
  | .vperm g o => Sys2Proof.Machine.execVperm g o s
  | .vpermExt g x => Sys2Proof.Machine.execVpermExt g x s
  | .vdot g x => Sys2Proof.Machine.execVdot g x s
  | .vred g x => Sys2Proof.Machine.execVred g x s
  | .vfadd g o => Sys2Proof.Machine.execVfadd g o s
  | .vfaddExt g x => Sys2Proof.Machine.execVfaddExt g x s
  | .vfsub g o => Sys2Proof.Machine.execVfsub g o s
  | .vfsubExt g x => Sys2Proof.Machine.execVfsubExt g x s
  | .vfmul g o => Sys2Proof.Machine.execVfmul g o s
  | .vfmulExt g x => Sys2Proof.Machine.execVfmulExt g x s
  | .vfma g o => Sys2Proof.Machine.execVfma g o s
  | .vfmaExt g x => Sys2Proof.Machine.execVfmaExt g x s
  | .vfmin g o => Sys2Proof.Machine.execVfmin g o s
  | .vfminExt g x => Sys2Proof.Machine.execVfminExt g x s
  | .vfmax g o => Sys2Proof.Machine.execVfmax g o s
  | .vfmaxExt g x => Sys2Proof.Machine.execVfmaxExt g x s
  | .vfabs g o => Sys2Proof.Machine.execVfabs g o s
  | .vfabsExt g x => Sys2Proof.Machine.execVfabsExt g x s
  | .vfneg g o => Sys2Proof.Machine.execVfneg g o s
  | .vfnegExt g x => Sys2Proof.Machine.execVfnegExt g x s
  | .vfcmp g x => Sys2Proof.Machine.execVfcmp g x s
  | .vfcvt g x => Sys2Proof.Machine.execVfcvt g x s
  | .vfrcp g o => Sys2Proof.Machine.execVfrcp g o s
  | .vfrcpExt g x => Sys2Proof.Machine.execVfrcpExt g x s
  | .vfrsq g o => Sys2Proof.Machine.execVfrsq g o s
  | .vfrsqExt g x => Sys2Proof.Machine.execVfrsqExt g x s
  | .vfexp2 g o => Sys2Proof.Machine.execVfexp2 g o s
  | .vfexp2Ext g x => Sys2Proof.Machine.execVfexp2Ext g x s
  | .vflog2 g o => Sys2Proof.Machine.execVflog2 g o s
  | .vflog2Ext g x => Sys2Proof.Machine.execVflog2Ext g x s
  | .vfclass g x => Sys2Proof.Machine.execVfclass g x s
  | .vqcb g x => Sys2Proof.Machine.execVqcb g x s
  | .vbscale g x => Sys2Proof.Machine.execVbscale g x s
  | .vfred g x => Sys2Proof.Machine.execVfred g x s
  | .mzero g x => Sys2Proof.Machine.execMzero g x s
  | .mma g x => Sys2Proof.Machine.execMma g x s
  | .mtld g x => Sys2Proof.Machine.execMtld g x s
  | .mst g x => Sys2Proof.Machine.execMst g x s
  | .mmask g x => Sys2Proof.Machine.execMmask g x s
  | .mrd g x => Sys2Proof.Machine.execMrd g x s
  | .mwr g x => Sys2Proof.Machine.execMwr g x s
  | .cp g x => Sys2Proof.Machine.execCp g x s
  | .cpm g x => Sys2Proof.Machine.execCpm g x s
  | .mcb g x => Sys2Proof.Machine.execMcb g x s
  | .mstat g x => Sys2Proof.Machine.execMstat g x s
  | .msave g x => Sys2Proof.Machine.execMsave g x s
  | .mrest g x => Sys2Proof.Machine.execMrest g x s
  | .rdsys g x => Sys2Proof.Machine.execRdsys g x s
  | .wrsys g x => Sys2Proof.Machine.execWrsys g x s
  | .freeze g x => Sys2Proof.Machine.execFreeze g x s
  | .thaw g x => Sys2Proof.Machine.execThaw g x s
  | .trap g x => Sys2Proof.Machine.execTrap g x s
  | .migrate g x => Sys2Proof.Machine.execMigrate g x s
  | .seal g x => Sys2Proof.Machine.execSeal g x s
  | .rdctr g x => Sys2Proof.Machine.execRdctr g x s
  | .wrctr g x => Sys2Proof.Machine.execWrctr g x s
  | .ctrcfg g x => Sys2Proof.Machine.execCtrcfg g x s
  | .wpset g x => Sys2Proof.Machine.execWpset g x s
  | .wpclr g x => Sys2Proof.Machine.execWpclr g x s
  | .sigctl g x => Sys2Proof.Machine.execSigctl g x s
  | .pwrite g x => Sys2Proof.Machine.execPwrite g x s
  | .bfmtWrite n v => Sys2Proof.Machine.execBfmtWrite n v s
  | .bankRewrite core bank => Sys2Proof.Machine.execBankRewrite core bank s
  | .pgans v => Sys2Proof.Machine.execPgans v s
  | .pginv v => Sys2Proof.Machine.execPginv v s
  | .frmctlAttributes v => Sys2Proof.Machine.execFrmctlAttributes v s
  | .frmctlWithdraw v => Sys2Proof.Machine.execFrmctlWithdraw v s
  | .frmctlFill v => Sys2Proof.Machine.execFrmctlFill v s
  | .frmctlRestore v => Sys2Proof.Machine.execFrmctlRestore v s
  | .sysregWrite n v => Sys2Proof.Machine.execSysregWrite n v s
  | .loadDataArrival id => Sys2Proof.Machine.execLoadDataArrival id s
  | .storeAck id => Sys2Proof.Machine.execStoreAck id s
  | .drainEnd ts => Sys2Proof.Machine.execDrainEnd ts s
  | .doneRetire ts => Sys2Proof.Machine.execDoneRetire ts s
  | .commitComplete ts => Sys2Proof.Machine.execCommitComplete ts s
  | .engineCompletion id => Sys2Proof.Machine.execEngineCompletion id s
  | .weevilReply id => Sys2Proof.Machine.execWeevilReply id s
  | .localTimeAdvance dev part ns => Sys2Proof.Machine.execLocalTimeAdvance dev part ns s
  | .eventArrival id => Sys2Proof.Machine.execEventArrival id s
  | .tableWalkDone id => Sys2Proof.Machine.execTableWalkDone id s
  | .pagerAnswerArrival id => Sys2Proof.Machine.execPagerAnswerArrival id s
  | .pinReply id => Sys2Proof.Machine.execPinReply id s
  | .dispatch core => Sys2Proof.Machine.execDispatch core s
  | .priorityAging a => Sys2Proof.Machine.execPriorityAging a s
  | .lateTranslationFill id => Sys2Proof.Machine.execLateTranslationFill id s
  | .buddyTimeout ts => Sys2Proof.Machine.execBuddyTimeout ts s
  | .forwardExpiry cl ix => Sys2Proof.Machine.execForwardExpiry cl ix s
  | .migrationTakeover id => Sys2Proof.Machine.execMigrationTakeover id s
  | .disarmRelease id => Sys2Proof.Machine.execDisarmRelease id s
  | .coreRestart core => Sys2Proof.Machine.execCoreRestart core s
  | .replayFeedInput bh => Sys2Proof.Machine.execReplayFeedInput bh s
  | .gateLoadRequest id => Sys2Proof.Machine.execGateLoadRequest id s
  | .gateStoreRequest id => Sys2Proof.Machine.execGateStoreRequest id s
  | .gateAtomicRequest id => Sys2Proof.Machine.execGateAtomicRequest id s
  | .weevilFamo id => Sys2Proof.Machine.execWeevilFamo id s
  | .weevilMcas id => Sys2Proof.Machine.execWeevilMcas id s
  | .weevilLenq id => Sys2Proof.Machine.execWeevilLenq id s
  | .weevilPchase id => Sys2Proof.Machine.execWeevilPchase id s
  | .pchaseSlotTimeout id => Sys2Proof.Machine.execPchaseSlotTimeout id s
  | .pinMessage id => Sys2Proof.Machine.execPinMessage id s
  | .creditReturn id => Sys2Proof.Machine.execCreditReturn id s
  | .spareRequest id => Sys2Proof.Machine.execSpareRequest id s
  | .spareGrant r => Sys2Proof.Machine.execSpareGrant r s
  | .rewriteNotice id => Sys2Proof.Machine.execRewriteNotice id s
  | .rewriteAck id => Sys2Proof.Machine.execRewriteAck id s
  | .heldReadTimeout id => Sys2Proof.Machine.execHeldReadTimeout id s
  | .replyTimeout id => Sys2Proof.Machine.execReplyTimeout id s
  | .migrationEntryWrite port bh ix v => Sys2Proof.Machine.execMigrationEntryWrite port bh ix v s
  | .migrationLineCopy bh ix => Sys2Proof.Machine.execMigrationLineCopy bh ix s
  | .sideTableWrite frame v => Sys2Proof.Machine.execSideTableWrite frame v s
  | .flitReceive link f => Sys2Proof.Machine.execFlitReceive link f s
  | .nakReceived link ack => Sys2Proof.Machine.execNakReceived link ack s
  | .retrainDone link => Sys2Proof.Machine.execRetrainDone link s
  | .keySwitchMarker link => Sys2Proof.Machine.execKeySwitchMarker link s
  | .markerReceived link f => Sys2Proof.Machine.execMarkerReceived link f s
  | .laneFailure link lane => Sys2Proof.Machine.execLaneFailure link lane s
  | .switchFlitRoute sw arr => Sys2Proof.Machine.execSwitchFlitRoute sw arr s
  | .combinedReplySplit sw rec m err => Sys2Proof.Machine.execCombinedReplySplit sw rec m err s
  | .heartbeatSend bh => Sys2Proof.Machine.execHeartbeatSend bh s
  | .heartbeatReceive leaf port ns => Sys2Proof.Machine.execHeartbeatReceive leaf port ns s
  | .heartbeatTimeout leaf port ns => Sys2Proof.Machine.execHeartbeatTimeout leaf port ns s
  | .memberNotice bh dev up => Sys2Proof.Machine.execMemberNotice bh dev up s
  | .timingExchange dev part plane => Sys2Proof.Machine.execTimingExchange dev part plane s
  | .timingRequest id => Sys2Proof.Machine.execTimingRequest id s
  | .timingReply id t4 rate => Sys2Proof.Machine.execTimingReply id t4 rate s
  | .cxlMemRead port off n => Sys2Proof.Machine.execCxlMemRead port off n s
  | .cxlMemWrite port off data => Sys2Proof.Machine.execCxlMemWrite port off data s
  | .mailboxGo port => Sys2Proof.Machine.execMailboxGo port s
  | .hsemAcquire port both => Sys2Proof.Machine.execHsemAcquire port both s
  | .hsemRelease port => Sys2Proof.Machine.execHsemRelease port s
  | .hostLinkDown port => Sys2Proof.Machine.execHostLinkDown port s
  | .armctlArm port v => Sys2Proof.Machine.execArmctlArm port v s
  | .armctlDisarm port v => Sys2Proof.Machine.execArmctlDisarm port v s
  | .attestRequest port => Sys2Proof.Machine.execAttestRequest port s
  | .attestComplete port => Sys2Proof.Machine.execAttestComplete port s
  | .bhpartWrite port bh v => Sys2Proof.Machine.execBhpartWrite port bh v s
  | .bulkheadReset port bh => Sys2Proof.Machine.execBulkheadReset port bh s
  | .bulkheadResetEnd bh => Sys2Proof.Machine.execBulkheadResetEnd bh s
  | .pcfgWrite port bh v => Sys2Proof.Machine.execPcfgWrite port bh v s
  | .pwrReqOn port bh => Sys2Proof.Machine.execPwrReqOn port bh s
  | .pwrReqIdle port bh => Sys2Proof.Machine.execPwrReqIdle port bh s
  | .pwrReqOff port bh => Sys2Proof.Machine.execPwrReqOff port bh s
  | .windowTableWrite port bh ix v => Sys2Proof.Machine.execWindowTableWrite port bh ix v s
  | .trwpWrite port bh v => Sys2Proof.Machine.execTrwpWrite port bh v s
  | .stopRequest port cl rid => Sys2Proof.Machine.execStopRequest port cl rid s
  | .stopRelease port cl rid => Sys2Proof.Machine.execStopRelease port cl rid s
  | .deadMemberClear port bh dev => Sys2Proof.Machine.execDeadMemberClear port bh dev s
  | .mgmtRegisterWrite port off v => Sys2Proof.Machine.execMgmtRegisterWrite port off v s
  | .thermalThrottle bh temp => Sys2Proof.Machine.execThermalThrottle bh temp s
  | .thermalTrip bh temp => Sys2Proof.Machine.execThermalTrip bh temp s
  | .powerCapExceeded dev w => Sys2Proof.Machine.execPowerCapExceeded dev w s
  | .modulePowerOn dev img0 img1 => Sys2Proof.Machine.execModulePowerOn dev img0 img1 s
  | .bootLeadTimeout dev => Sys2Proof.Machine.execBootLeadTimeout dev s
  | .bootDone dev => Sys2Proof.Machine.execBootDone dev s
  | .moduleReset dev => Sys2Proof.Machine.execModuleReset dev s
  | .referenceLockLoss dev part => Sys2Proof.Machine.execReferenceLockLoss dev part s
  | .referenceLockReturn dev part => Sys2Proof.Machine.execReferenceLockReturn dev part s
  | .switchFailure sw => Sys2Proof.Machine.execSwitchFailure sw s
  | .retiredSlotKeyLoad link => Sys2Proof.Machine.execRetiredSlotKeyLoad link s
  | .hostLinkUp port => Sys2Proof.Machine.execHostLinkUp port s
  | .powerWithinCap dev w => Sys2Proof.Machine.execPowerWithinCap dev w s
  | .memoryBitError sector data check => Sys2Proof.Machine.execMemoryBitError sector data check s

end Sys2Proof.Machine
end

