-- ==== Sys2Proof/Machine/Issue.lean ====
section
/-! DEFINITION. Issue.lean: a thread set's turn: fetch, the decode checks and the guard in the order of R164, what an instruction
waits for (R97, R184, R185), and what follows its retirement: repetition (R193), counters (R333, R404, R405) and the block
checker (R386). -/

namespace Sys2Proof.Machine

/-- Whether a thread set may issue: it runs, its core's clock is not gated (R442), and no freeze waits for it (R356, R328). -/
def canIssue (s : State) (u : Nat) : Bool := (s.th u).mode == .run && (s.bu (bhOf u)).pwrSt == 0 && !freezing s u

/-- The instruction that fields which passed the decode checks name. -/
def rawInstr : Raw → Option Instr
  | .base op g hi lit => baseInstr op g hi lit
  | .ext op g v d a b w2 lit => extInstr op g v d a b w2 lit
def rawGuard : Raw → Guard
  | .base _ g .. => g
  | .ext _ g .. => g

/-- Whether an instruction's guard lets it act: its guard bit, or any lane of its mask for a vector instruction (R149). -/
def guarded (r : Regs) (x : Raw) : Bool := if isVectorOp (rawOp x) then r.lanes (rawGuard x) != 0 else r.guardTrue (rawGuard x)

/-! ### Waiting (R88, R97, R102, R184, R185) -/

/-- Pending destinations of a thread set: vector file or not, first slice, slices. -/
def pendingDests (s : State) (u : Nat) : List (Bool × Nat × Nat) :=
  s.flight.filterMap fun e => match e.2 with
    | .load ts _ d .. => if ts = u then some (d.vec, d.start, d.width) else none
    | .weevil q => if q.ts = u ∧ q.gen = (s.th u).gen then q.d.map fun d => (false, d.1, d.2) else none
    | _ => none

/-- Whether an operand record (R177) meets a pending destination. -/
def recMeets (x : W32) (p : Bool × Nat × Nat) : Bool :=
  let start := (x.extractLsb' 0 9).toNat
  let width := (x.extractLsb' 9 4).toNat + 1
  (x.extractLsb' 13 2).toNat == p.1.toNat && start < p.2.1 + p.2.2 && p.2.1 < start + width

/-- The operands that the scoreboard judges: those of the signature record, the link that a base call writes, and the second
half of the a of a cpm, which is 32 slices wide (R183, R310). -/
def scoreRecords : Raw → List W32
  | .base op g hi lit => if op = 0x03 then [operandRec 496 16 0 true] else rawRecords (.base op g hi lit)
  | .ext op g v d a b w2 lit =>
    (if op = 0xB8 then [operandRec (a.start.toNat + 16) 16 0 false] else []) ++ rawRecords (.ext op g v d a b w2 lit)

/-- Instructions that wait for every older load (R185). (log 56, DEDUCED) -/
def waitsForLoads (op : Nat) : Bool :=
  op == 0x07 || op == 0x3C || op == 0x41 || op == 0x43 || (0x44 ≤ op && op ≤ 0x48) || op == 0x4C || op == 0x60 || op == 0x61 ||
    op == 0x64 || op == 0x65 || (0xB0 ≤ op && op ≤ 0xBC) || (0xD0 ≤ op && op ≤ 0xDD)

/-- Instructions that access memory; vqcb reads its codebook as ld reads (R286). -/
def accesses (op : Nat) : Bool := op == 0x9F || (0x40 ≤ op && op ≤ 0x49) || op == 0x4E || op == 0x4F || (0xB1 ≤ op && op ≤ 0xBC)

/-! ### The history behind pending loads (R185) -/

/-- The guards or masks that an instruction writes, other than those that read as constants. -/
def guardDests : Raw → List Nat
  | .base op _ hi _ => match opRow op with
    | some r => if r.base = .icmp then [(hi.extractLsb' 0 3).toNat, (hi.extractLsb' 3 3).toNat].filter (· != 7) else []
    | none => []
  | .ext op _ _ d .. => match (opRow op).map fun (r : OpRow) => r.d with
    | some .gpair => [(d.start.extractLsb' 0 3).toNat, (d.start.extractLsb' 3 3).toNat].filter (· != 7)
    | some .gone => [(d.start.extractLsb' 0 3).toNat].filter (· != 7)
    | some .gbyte => if d.file = 2 then [8] else []
    | _ => []

/-- Whether an instruction may raise flags in FPCTL (R257). -/
def raises : Raw → Bool
  | .base op .. => (0x90 ≤ op.toNat && op.toNat ≤ 0x95) || (0x9A ≤ op.toNat && op.toNat ≤ 0x9D)
  | .ext op _ _ _ _ _ w2 _ =>
    let o := op.toNat
    o == 0x80 || (o == 0x8A && w2.getLsbD 1) || (0x90 ≤ o && o ≤ 0x95) || (0x98 ≤ o && o ≤ 0x9D) || (0x9F ≤ o && o ≤ 0xA1)

/-- The entries that an instruction needs: one for each slice destination, guard and mask that it writes, and one for FPCTL. The
destination of a load is none of them: a younger load is withdrawn, not undone. (log 46, DEDUCED) -/
def histNeeds (x : Raw) : Nat :=
  if rawOp x = 0x40 ∨ rawOp x = 0x42 then 0
  else ((scoreRecords x).filter fun r => r.getLsbD 15).length + (guardDests x).eraseDups.length + (raises x).toNat

/-- The entries in use: the writes since the oldest pending load was issued. (log 46, DEDUCED) -/
def histUse (s : State) (u : Nat) : Nat :=
  match s.flight.findSome? fun e => match e.2 with
      | .load ts _ _ _ _ _ _ spot _ => if ts = u then some spot.hist else none
      | _ => none with
  | some h => (s.th u).hist - h
  | none => 0

/-- The stall cause that keeps an instruction from issuing now, `none` when it may go ahead; 0 for a wait that Table 21-9 does not list:
for older loads whose destinations the instruction does not name (R185), or for an acquire (R88). -/
def heldBy (s : State) (u : Nat) (x : Raw) : Option Nat :=
  if !guarded (s.th u).r x then none
  else
    let op := (rawOp x).toNat
    let ps := pendingDests s u
    if ps.any fun p => (scoreRecords x).any fun r => recMeets r p then some 8
    else if waitsForLoads op && s.loading u then some 0
    else if accesses op && acquiring s u then some 0
    else if s.loading u && 16 < histUse s u + histNeeds x then some 14
    else none

/-! ### What follows an instruction -/

/-- Whether the instruction has taken effect and the program has gone past it: its program counter has moved, or it has
transferred to itself, or it is done and drains. -/
def retired (t t1 : Thread) (x : Raw) (g : Bool) : Bool :=
  t1.pc != t.pc || (g && t1.mode == .run && t.mode == .run && rawEnds x && rawOp x != 0x07) || t1.mode == .drain true

/-- Counts a retired instruction under the counters as they were set before it; the counter that a wrctr has written keeps its
value and its OEVT (R334, Table 17-7). (log 53, DESIGN CHOICE) -/
def countRetired (u : Nat) (g : Bool) (x : Raw) (s s1 : State) : State :=
  let c := coreOf u
  let k0 := s.co c
  let evt := if g then 1 else 2
  if k0.cfg.any fun e => e.2.evt.toNat == evt then
    let k1 := s1.co c
    let own := match x with
      | .ext op _ _ _ _ b _ lit => if op = 0xD8 ∧ g then some (readZ b lit { s with cur := u }) else none
      | _ => none
    let s2 := countEv u evt 1 (s1.modCo c fun k => { k with cfg := k0.cfg })
    let kept (n : Nat) : Bool := (Map.get {} (s2.co c).cfg n).oevt == (Map.get {} k0.cfg n).oevt || own == some n
    let cfg := k1.cfg.map fun (e : Nat × CtrCfg) =>
      (e.1, if kept e.1 then e.2 else { e.2 with oevt := (Map.get {} (s2.co c).cfg e.1).oevt })
    s2.modCo c fun k => { k with cfg := cfg, ctrs := match own with
      | some n => Map.set k.ctrs n (Map.get {} k1.ctrs n)
      | none => k.ctrs }
  else s1

/-- The repetition goes on after a body instruction that fell through (R193). -/
def goOn (u len : Nat) (g : Bool) (x : Raw) (t : Thread) (s : State) : State :=
  let t1 := s.th u
  if t.repAct && t1.repst == t.repst && t1.pc == t.pc + BitVec.ofNat 64 len && !(rawOp x == 0x06 && g) then repNext u len s else s

/-- The block checker takes a retired instruction, which was issued in `t`: passes of a repetition after the first are ignored, and the
way back to the body's start is no exit of the block (R177, R386). A transfer out of a later pass, to the next address too (R194),
leaves the running block, which began in the first, unchecked. -/
def noteBlock (u : Nat) (ws : List W32) (x : Raw) (t : Thread) (s : State) : State :=
  let t1 := s.th u
  match t1.blk with
  | none => s
  | some b =>
    let fall := t.pc + BitVec.ofNat 64 (4 * ws.length)
    if t.repAct && t.repJ != 0 then
      if t1.pc != t.pc && t1.repJ == 0 && (t1.pc != fall || t1.repAct || (rawEnds x && guarded t.r x)) then s.modTh u fun t => { t with blk := none } else s
    else checkBlock u (b.note ws x) x (if t1.repAct && t1.repJ != 0 then fall else t1.pc).toNat s

/-- What comes after an instruction: `s` is the state it was issued in, `s1` the one its meaning gave; `x` is the instruction as
fetched, `y` as it ran, staggered. (log 46, DEDUCED) -/
def after (u : Nat) (ws : List W32) (x y : Raw) (s s1 : State) : State :=
  let t := s.th u
  let g := guarded t.r x
  if retired t (s1.th u) x g then
    let s2 := goOn u (4 * ws.length) g x t s1
    let s3 := countRetired u g y s s2
    let s4 := if rawOp x = 0x07 ∧ g then s3 else noteBlock u ws x t s3
    -- the history of register writes behind older loads (R185)
    let s5 := if g && s.loading u && s4.loading u then s4.modTh u fun t => { t with hist := t.hist + histNeeds y } else s4
    s5.modCo (coreOf u) fun k => { k with issued := true }
  else s1

/-- Another cycle of a core (counter 4), but for a wrctr that sets it. An instruction reads what it held before (R334).
(log 46, DEDUCED) -/
def cycle (c : Nat) (s : State) : State :=
  s.modCo c fun k =>
    let n := Map.get {} k.ctrs 4
    { k with ctrs := Map.set k.ctrs 4 { n with count := n.count + 1 } }
def setsCycle (u : Nat) (x : Raw) (s : State) : Bool := match x with
  | .ext op g _ _ _ b _ lit => op == 0xD8 && (s.act u).priv && (s.th u).r.guardTrue g && readZ b lit { s with cur := u } == 4
  | _ => false
/-- Whether a thread set's turn has used its core's cycle, in which nothing had issued before: an instruction has retired, has
arrived at a barrier, or has frozen or drained the thread set. One that waits uses none (R356). (log 53, DESIGN CHOICE) -/
def used (u : Nat) (s t : State) : Bool :=
  (t.co (coreOf u)).issued || (t.th u).bar != (s.th u).bar || match (t.th u).mode with
    | .run | .parked _ | .halted => false
    | _ => true
/-- The cycle in which an instruction issues. -/
def cycled (u : Nat) (x : Raw) (s : State) : Out → Out
  | .next t => .next (if setsCycle u x s || !used u s t then t else cycle (coreOf u) t)
  | o => o

/-- Whether a thread set runs an activation past its commit point of a reactor that moves (R372). -/
def leaving (s : State) (u : Nat) : Bool :=
  let a := s.act u
  (s.re a.reactor).st == .move && (s.th u).act.isSome && !a.restartable && (a.kind == .ordinary || a.kind == .late)

/-- It stops at a block's exit: before the first word of a block, unless it has arrived there at a barrier, or after an instruction that
ends one (R176, R372). -/
def atExit (s : State) (u : Nat) : Bool := leaving s u && (s.th u).bar.isNone && (sigAt s (bhOf u) (s.th u).pc.toNat).isSome
def stopAfter (u : Nat) (x : Raw) (t : Thread) (s : State) : State :=
  let t1 := s.th u
  if leaving s u && rawEnds x && t1.mode == .run && retired t t1 x (guarded t.r x) then s.modTh u fun t => { t with mode := .halted }
  else s

/-- Issues an instruction whose fields passed the checks: its meaning, and what follows. (log 46, DEDUCED) -/
def run (u : Nat) (ws : List W32) (x y : Raw) (i : Instr) (s : State) : Out :=
  -- done is checked before it ends the activation (R386)
  let s := if rawOp x = 0x07 ∧ guarded (s.th u).r x ∧ !s.loading u then noteBlock u ws x (s.th u) s else s
  if !canIssue s u then .next s
  else match exec i s with
    | .next s1 => .next (stopAfter u x (s.th u) (after u ws x y s s1))
    | o => o

/-- Judges the decode checks of an instruction as fetched, staggered where it runs in a repetition (R164, R193). -/
def checked (t : Thread) (x : Raw) : Except Nat Raw :=
  if t.repAct then stagger t x
  else match x.failedCheck with
    | some c => .error c
    | none => .ok x

/-- The turn of an instruction that has been fetched. -/
def issueWords (u : Nat) (ws : List W32) (s : State) : Out :=
  match Raw.ofWords ws with
  | none => .next s
  | some x =>
    match checked (s.th u) x with
    | .error c => .next (reservedTrap (ws.headD 0) c s)
    | .ok y =>
      match rawInstr y with
      | none => .next (reservedTrap (ws.headD 0) 1 s)
      | some i => match heldBy s u y with
        | some c => .next (stall u c 1 s)
        | none => cycled u y s (run u ws x y i s)

/-- The turn of an instruction at the program counter: the watchpoints see its fetch once, as it issues (R337).
(log 97, DESIGN CHOICE) -/
def issueAt (u : Nat) (ws : List W32) (s : State) : Out :=
  match issueWords u ws (codeHits u ws.length (s.th u).pc s) with
  | .next t => if used u s t then .next t else issueWords u ws s
  | o => o

/-- The turn of thread set u: it fetches and issues, or takes the fetch's trap or miss (R164, R216). Inside a repetition the body
up to the instruction is mapped first, so that its passes can be counted (R193). (log 15, DESIGN CHOICE) -/
def issue (u : Nat) (s : State) : Out :=
  if !unitOk u then .fault .noUnit
  else
    let s := { s with cur := u }
    if !canIssue s u then .next s
    else if atExit s u then .next (s.modTh u fun t => { t with mode := .halted })
    else
      let s := enterBlock u s
      match s.codeWords u (s.th u).pc with
      | .error a => .next (fetchMiss u a s)
      | .ok ws => match repMiss s u with
        | some a => .next (fetchMiss u a s)
        | none => issueAt u ws s

end Sys2Proof.Machine
end

