-- ==== Sys2Proof/Machine/Schedule.lean ====
section
/-! DEFINITION. Schedule.lean: which step comes next where the environment asks for none: the events that are due, the thread sets
in turn (R356), and the passing of time (R345). -/

namespace Sys2Proof.Machine

/-! ### Events that are due -/

/-- What a step of the table does to a state. -/
abbrev Deed := State → Out

/-- The event that work in flight leads to next. -/
def flightEvent (id : Nat) : Flight → Option Deed
  | .load _ _ _ (some _) _ _ _ _ none => some (execGateAtomicRequest id)
  | .load _ _ _ none _ _ _ _ none => some (execGateLoadRequest id)
  | .load .. => some (execLoadDataArrival id)
  | .store q => some (if q.performed || bhOfPa q.p.pa == bhOf q.ts then execStoreAck id else execGateStoreRequest id)
  | .weevil q => some (match q.reply, q.w with
    | some _, _ => execWeevilReply id
    | none, .famo _ => execWeevilFamo id
    | none, .mcas .. => execWeevilMcas id
    | none, .lenq _ | none, .link .. => execWeevilLenq id
    | none, .pchase .. => execWeevilPchase id)
  | .engine .. => some (execEngineCompletion id)
  | .event _ => some (execSpareRequest id)
  | .entry .. => some (execEventArrival id)
  | .walk .. => some (execTableWalkDone id)
  | .fill .. => some (execLateTranslationFill id)
  | .pin _ _ _ _ _ none => some (execPinMessage id)
  | .pin .. => some (execPinReply id)
  | .answer .. => some (execPagerAnswerArrival id)
  | .credit .. => some (execCreditReturn id)
  | .notice .. => some (execRewriteNotice id)
  | .noticeAck .. => some (execRewriteAck id)
  | .move .. => some (execMigrationTakeover id)
  | .disarm .. => some (execDisarmRelease id)
  | .timing _ _ _ _ none => some (execTimingRequest id)
  | .timing dev part .. => some fun s => execTimingReply id (s.chanOf dev part).ns 200 s
  | .ingress _ (.arm ..) => some (retryArm id)
  | .heldRead _ | .hostRead .. | .ingress .. | .freeze .. | .turn .. => none

/-- The event that a thread set's drain leads to. -/
def threadEvent (u : Nat) (t : Thread) : Option Deed :=
  match t.mode with
  | .drain _ => some (execDrainEnd u)
  | .drained true => some (execDoneRetire u)
  | .drained false => some (execCommitComplete u)
  | _ => none

/-- The flits that arrive in a slot: the first that waits at each input. -/
def arriving (k : Switch) : List Arrival :=
  (k.inp.map (·.1)).eraseDups.filterMap fun p => (k.inp.find? fun e => e.1 == p).map fun e =>
    { inPort := p, up := 0, flit := { hdr := e.2.hdr, body := e.2.body, tag := 0, crc := 0 } }

/-- Every event that may be due, in the order in which they are taken. (log 12, DESIGN CHOICE) -/
def dueEvents (s : State) : List Deed :=
  s.flight.filterMap (fun e => if s.onWire e.1 then none else flightEvent e.1 e.2) ++
  s.thr.filterMap (fun e => threadEvent e.1 e.2) ++
  s.core.flatMap (fun e => (e.2.rewriting.map fun w => execBankRewrite e.1 w.1) ++
    if e.2.killed then [execCoreRestart e.1] else []) ++
  s.reac.filterMap (fun e => if 0 < e.2.spares then some (execSpareGrant e.1) else none) ++
  s.clu.flatMap (fun e => (e.2.traps.filterMap fun t =>
      if (receiverOf s t).isNone then some (execBuddyTimeout t.ts) else none) ++
    (if e.2.reqs.any fun q => !q.posted then [pagerLost e.1] else []) ++
    e.2.fwd.map fun w => execForwardExpiry e.1 w.1) ++
  ((s.reac.map fun e => e.2.core).eraseDups.map execDispatch) ++
  s.bh.flatMap (fun e => (e.2.migs.filterMap fun m => if migState m.2 = 1 then some (execMigrationLineCopy e.1 m.1) else none) ++
    if rpMode e.2 = 2 then [execReplayFeedInput e.1] else []) ++
  s.dev.flatMap (fun e => e.2.attQueue.take 1 |>.map execAttestComplete) ++
  s.link.flatMap (fun e => (e.2.out.take 1).map (fun f => execFlitReceive (peerEnd e.1) f) ++
    if e.2.up = 1 || e.2.starts then [execRetrainDone e.1] else []) ++
  s.sw.flatMap (fun e => if e.2.inp.isEmpty && e.2.hold.isEmpty && e.2.own.isEmpty && e.2.comb.isEmpty then [] else
    [execSwitchFlitRoute e.1 (arriving e.2)])

/-- The first event that would change anything. (log 12, DESIGN CHOICE) -/
def pickEvent (s : State) : Option Deed := (dueEvents s).find? fun d => decide (nextOf (d s) s ≠ s)

/-! ### Turns of the thread sets -/

/-- The thread sets that may issue. -/
def ready (s : State) : List Nat := (s.thr.filter fun e => canIssue s e.1).map (·.1)
/-- The thread sets of a core that may issue, after the one that issued last, in the cyclic order 0, 1, 2, 3 (R356). -/
def coreSets (s : State) (c : Nat) : List Nat :=
  ((List.range 4).map fun i => c * 4 + ((s.co c).lastTs + 1 + i) % 4).filter (canIssue s)
/-- The core whose cycle comes: cores take turns. (log 53, DESIGN CHOICE) -/
def turnOf (s : State) : Option Nat := (((ready s).find? (coreOf s.cur < coreOf ·)).or (ready s).head?).map coreOf
/-- A core's cycle is over; once every core has had one, time is to move on. -/
def passTurn (c : Nat) (s : State) : State :=
  { s with cur := c * 4 + tsOf s.cur, tickDue := s.tickDue || !(ready s).any (c < coreOf ·) }
def setIssued (c : Nat) (b : Bool) (s : State) : State := s.modCo c fun k => { k with issued := b }
/-- What a cycle that another thread set uses brings one that may issue: where it waits, its stall counts; else it keeps its turn
(R356, R404). -/
def standsBy (s : State) (v : Nat) : State :=
  let s0 := setIssued (coreOf v) false s
  match issue v s0 with
  | .next t => if used v s0 t then s else setIssued (coreOf v) (s.co (coreOf v)).issued t
  | _ => s
/-- A cycle of a core, whose thread sets take it in order until one uses it: one that waits takes no issue slot from another
(R356). (log 53, DESIGN CHOICE) -/
def coreTurn (c : Nat) : List Nat → State → Out
  | [], s => .next (passTurn c (cycle c s))
  | u :: us, s =>
    match issue u s with
    | .next t =>
      if used u s t then .next (passTurn c { (us.foldl standsBy t).modCo c fun k => { k with lastTs := tsOf u } with cur := u })
      else coreTurn c us t
    | o => o
def coreCycle (c : Nat) (s : State) : Out :=
  match coreTurn c (coreSets s c) (setIssued c false s) with
  | .next t => .next (setIssued c ((s.co c).issued || (t.co c).issued) t)
  | o => o

/-! ### Time -/

/-- The partitions that run, each on each of its devices. -/
def runningParts (s : State) : List (Nat × Nat) :=
  (s.bh.filterMap fun e => if s.running e.1 then (s.partOf? e.1).map fun p => (devOfBh e.1, p) else none).eraseDups

/-- The stalls that no turn of a thread set shows: a drain that waits for acknowledgements, held events that wait for room, and a core
that has issued nothing while a thread set runs an activation (Table 21-9). (log 52, DESIGN CHOICE) -/
def countIdle (s : State) : State :=
  let s := s.thr.foldl (fun s e =>
    let s := match e.2.mode with
      | .drain _ => stall e.1 12 1 s
      | .drained _ => if (s.act e.1).msgs.isEmpty then s else stall e.1 11 1 s
      | _ => s
    if e.2.act.isSome && !(s.co (coreOf e.1)).issued then stall e.1 15 1 s else s) s
  { s with core := s.core.map fun (e : Nat × CoreSt) => (e.1, { e.2 with issued := false }) }

/-- Every running partition's time base moves on by 1 ns. (log 13, DESIGN CHOICE) -/
def tick (s : State) : State :=
  (runningParts s).foldl (fun s d => nextOf (execLocalTimeAdvance d.1 d.2 ((s.chanOf d.1 d.2).ns + 1) s) s)
    { countIdle s with tickDue := false }

/-- Nothing is due and nothing can issue: the time base that is behind moves on to its next tick. (log 13, DESIGN CHOICE) -/
def idle (s : State) : State :=
  let s := countIdle s
  match (runningParts s).foldl (fun (m : Option (Nat × Nat)) d => match m with
      | none => some d
      | some e => if (s.chanOf d.1 d.2).ns < (s.chanOf e.1 e.2).ns then some d else some e) none with
  | none => s
  | some (dev, part) =>
    let k := ((bhsOf s dev part).head?.map fun b => ((s.bu b).pcfg.extractLsb' 0 5).toNat).getD 0
    nextOf (execLocalTimeAdvance dev part (((s.chanOf dev part).ns / 2 ^ k + 1) * 2 ^ k) s) s

/-! ### One step -/

/-- After any step, a freeze that waits for its target takes effect as soon as it can, and the trace units write their records
(R328, R398); and what the step has put on the fabric is sent (R414). -/
def settle (s0 : State) : Out → Out
  | .next s => .next (wireOut s0 (traceOut (endFreezes s)))
  | o => o
/-- What the environment asks for: a cycle of a thread set's core (R356), or an event. -/
def askedFor (t : Turn) (s : State) : Out :=
  match t with
  | .issue u => if !unitOk u then .fault .noUnit
    else if (coreSets s (coreOf u)).isEmpty then .next s else coreCycle (coreOf u) s
  | .event i => exec i s

/-- What happens where the environment asks for nothing. -/
def byItself (s : State) : Out :=
  match pickEvent s with
  | some d => d s
  | none =>
    if s.tickDue then .next (tick s)
    else match turnOf s with
      | some c => coreCycle c s
      | none => .next (idle s)

end Sys2Proof.Machine
end

