-- ==== Sys2Proof/Machine/Step.lean ====
section
/-! DEFINITION. Step.lean: one step of the pod, and the placing of an instruction where the next step fetches it. -/

namespace Sys2Proof.Machine

/-- One step: what the environment asks for next, else an event that is due, else the turn of a thread set, else the passing of
time. (log 12, DESIGN CHOICE) (log 53, DESIGN CHOICE) (log 58, DESIGN CHOICE) -/
def step (s : State) : Host.Outcome State Fault Refusal :=
  match s.agenda with
  | t :: rest => settle s (askedFor t { s with agenda := rest })
  | [] => settle s (byItself s)

/-- The program counter of the placed instruction. (log 11, DESIGN CHOICE) -/
def placePc : W64 := 0x3000000000000000

/-- `s` with the instruction of the given bits where thread set 0 fetches next: an activation of it runs, its code page is mapped
and pinned at HBM offset 0 of bulkhead 0 of device 0, it is the next of its core to issue, and nothing else is asked for.
(log 11, DESIGN CHOICE) -/
def State.withFetchWord (s : State) (nbits w : Nat) : State :=
  let t := s.th 0
  { s with
    mem := Memory.wrs s.mem 0 (bytesOfWords (tableWords nbits w))
    thr := Map.set s.thr 0 { t with pc := placePc, mode := .run, repst := 0, act := some { t.act.getD {} with
      code := [{ va := placePc.toNat, size := 65536, pa := 0 }] } }
    core := Map.set s.core 0 { s.co 0 with lastTs := 3 }
    cur := 0
    agenda := [.issue 0] }

end Sys2Proof.Machine
end

