-- ==== Sys2Proof/Safety.lean ====
section
/-! DEFINITION. Safety.lean: what counts as a safe run, in the terms that claims use. -/

namespace Sys2Proof.Safety

open Sys2Proof.Machine

/-- A step that goes on: it neither faults nor refuses. -/
def goesOn (s : State) : Prop := ∃ t, step s = .next t

/-- The agenda asks for issue turns of existing units only, so that no step can fault with `noUnit` (R4). -/
def asksForUnits (s : State) : Prop := ∀ u, Turn.issue u ∈ s.agenda → unitOk u = true

/-- Every thread set that the state knows has a coordinate that names a unit (R4). -/
def knownUnits (s : State) : Prop := ∀ e ∈ s.thr, unitOk e.1 = true

/-- The invariant of memory: its canonical form. -/
def memOk (s : State) : Prop := Memory.wf s.mem = true

/-- A byte of memory as a claim reads it: raw, by global physical address. -/
def byteAt (s : State) (a : Nat) : Byte := Memory.rd s.mem a

end Sys2Proof.Safety
end

