-- ==== Sys2Proof/Certificates/Slice0/Obligations.lean ====
section
/-! DEFINITION. Obligations.lean: what the model claims, for the provers; each statement follows rules of spec/. -/

section Statements

open Sys2Proof Sys2Proof.Machine

namespace Sys2Proof.Claims
end Sys2Proof.Claims
open Sys2Proof.Claims

/-! ### Vocabulary of the statements about one instruction -/

namespace Sys2Proof.Claims

/-- What an instruction of `len` bytes leaves that only writes registers of the issuing thread set and falls through: its
registers changed by `f`, its program counter past the instruction, and every other part of the state as before. -/
def wrote (len : Nat) (f : Regs → Regs) (s : State) : State :=
  s.modMe fun t => { t with r := f t.r, pc := t.pc + BitVec.ofNat 64 len }

/-- The integer that a pattern of `w` bits stands for when it is extended under a type code: signed under sint (R159). -/
def intOf (ty v w : Nat) : Int := if ty = 0 then sgn v w else (v : Int)

/-- Operands a and b of a scalar instruction as integers, and as patterns of the operation width (R197). -/
def aInt (o : Opnds) (r : Regs) : Int := intOf o.ty (readSlices r.scalar o.a) (4 * o.a.width)
def bInt (o : Opnds) (r : Regs) : Int := intOf o.ty (o.b.read r) (4 * o.b.width)
def aPat (o : Opnds) (r : Regs) : Nat := wrap o.n (aInt o r)
def bPat (o : Opnds) (r : Regs) : Nat := wrap o.n (bInt o r)
/-- The width of a unary instruction, and its operand as a pattern of that width (R200). -/
def uWidth (o : Opnds) : Nat := 4 * max o.d.width o.a.width
def uPat (o : Opnds) (r : Regs) : Nat := wrap (uWidth o) (aInt o r)

/-- Both forms of a scalar instruction with two sources complete under a true guard: d receives the low bits of `v`, control
falls through, and nothing else changes. -/
def Writes (base : Guard → B3 → Instr) (ext : Guard → XA → Instr) (v : Opnds → Regs → Nat) : Prop :=
  (∀ g o s, s.me.r.guardTrue g = true →
    exec (base g o) s = .next (wrote (baseLen o.lit) (fun r => r.put (win o.d) (v (ofB3 o) r)) s)) ∧
  (∀ g x s, s.me.r.guardTrue g = true →
    exec (ext g x) s = .next (wrote (extLen x.lit) (fun r => r.put (rngOf x.d) (v (ofXA x) r)) s))

/-- The same for a scalar instruction with one source. -/
def WritesU (base : Guard → BU → Instr) (ext : Guard → XA → Instr) (v : Opnds → Regs → Nat) : Prop :=
  (∀ g o s, s.me.r.guardTrue g = true →
    exec (base g o) s = .next (wrote 4 (fun r => r.put (win o.d) (v (ofBU o) r)) s)) ∧
  (∀ g x s, s.me.r.guardTrue g = true →
    exec (ext g x) s = .next (wrote (extLen x.lit) (fun r => r.put (rngOf x.d) (v (ofXA x) r)) s))

/-- An extended-only scalar instruction completes under a true guard with its effect on the registers. -/
def WritesX (ext : Guard → XA → Instr) (f : XA → Regs → Regs) : Prop :=
  ∀ g x s, s.me.r.guardTrue g = true → exec (ext g x) s = .next (wrote (extLen x.lit) (f x) s)

/-- The number whose bits below `n` are those of `f`. -/
def bitsOf (n : Nat) (f : Nat → Bool) : Nat := (List.range n).foldl (fun v i => v + (f i).toNat * 2 ^ i) 0

/-- Quotient and remainder of R199, signed and unsigned, at width N. -/
def quotS (n a b : Nat) : Nat :=
  if b = 0 then 2 ^ n - 1
  else if sgn a n = -(2 ^ (n - 1)) ∧ sgn b n = -1 then a
  else wrap n (Int.tdiv (sgn a n) (sgn b n))
def remS (n a b : Nat) : Nat :=
  if b = 0 then a
  else if sgn a n = -(2 ^ (n - 1)) ∧ sgn b n = -1 then 0
  else wrap n (sgn a n - Int.tdiv (sgn a n) (sgn b n) * sgn b n)
def quotU (n a b : Nat) : Nat := if b = 0 then 2 ^ n - 1 else a / b
def remU (a b : Nat) : Nat := if b = 0 then a else a - a / b * b

end Sys2Proof.Claims

/-! ### Scalar integer instructions -/

/-- R198, R199: the binary arithmetic instructions write the result of Table 11-1, taken modulo 2^N and truncated to d, in both
forms, and nothing else. -/
def Sys2Proof.Claims.BinaryArithmetic : Prop :=
  Writes .iadd .iaddExt (fun o r => wrap o.n (aInt o r + bInt o r)) ∧
  Writes .isub .isubExt (fun o r => wrap o.n (aInt o r - bInt o r)) ∧
  Writes .imul .imulExt (fun o r => wrap o.n (aInt o r * bInt o r)) ∧
  Writes .imulh .imulhExt (fun o r => wrap o.n (Int.fdiv (sgn (aPat o r) o.n * sgn (bPat o r) o.n) (2 ^ o.n))) ∧
  Writes .imulhu .imulhuExt (fun o r => aPat o r * bPat o r / 2 ^ o.n) ∧
  Writes .idiv .idivExt (fun o r => quotS o.n (aPat o r) (bPat o r)) ∧
  Writes .idivu .idivuExt (fun o r => quotU o.n (aPat o r) (bPat o r)) ∧
  Writes .irem .iremExt (fun o r => remS o.n (aPat o r) (bPat o r)) ∧
  Writes .iremu .iremuExt (fun o r => remU (aPat o r) (bPat o r)) ∧
  Writes .imin .iminExt (fun o r => if sgn (aPat o r) o.n ≤ sgn (bPat o r) o.n then aPat o r else bPat o r) ∧
  Writes .imax .imaxExt (fun o r => if sgn (bPat o r) o.n ≤ sgn (aPat o r) o.n then aPat o r else bPat o r) ∧
  Writes .iminu .iminuExt (fun o r => min (aPat o r) (bPat o r)) ∧
  Writes .imaxu .imaxuExt (fun o r => max (aPat o r) (bPat o r))

/-- R200: ineg and iabs, at N = 4 max(d.width, a.width); the absolute value of −2^(N−1) wraps to itself. -/
def Sys2Proof.Claims.UnaryArithmetic : Prop :=
  WritesU .ineg .inegExt (fun o r => wrap (uWidth o) (0 - (uPat o r : Int))) ∧
  WritesU .iabs .iabsExt (fun o r =>
    if 0 ≤ sgn (uPat o r) (uWidth o) then uPat o r else wrap (uWidth o) (0 - sgn (uPat o r) (uWidth o)))

/-- R198 to R200: the binary and the unary arithmetic instructions of the scalar file. -/
def Obligations.ScalarArithmetic : Prop := Claims.BinaryArithmetic ∧ Claims.UnaryArithmetic

/-- R201: and, or, xor, andn and orn act bit by bit on A and B at width N. -/
def Sys2Proof.Claims.LogicBitByBit : Prop :=
  let W base ext (f : Bool → Bool → Bool) := Writes base ext fun o r =>
    bitsOf o.n fun i => f ((aPat o r).testBit i) ((bPat o r).testBit i)
  W .and .andExt (fun a b => a && b) ∧ W .or .orExt (fun a b => a || b) ∧ W .xor .xorExt (fun a b => a != b) ∧
  W .andn .andnExt (fun a b => a && !b) ∧ W .orn .ornExt (fun a b => a || !b)

/-- R202: the shifts and the rotate at width N; the count is b zero-extended from its own width, whatever the type. A shift by N
or more gives zero, or copies of the sign bit for sar. -/
def Sys2Proof.Claims.ShiftsAndRotate : Prop :=
  Writes .shl .shlExt (fun o r => aPat o r * 2 ^ o.b.read r % 2 ^ o.n) ∧
  Writes .shr .shrExt (fun o r => aPat o r / 2 ^ o.b.read r) ∧
  Writes .sar .sarExt (fun o r => bitsOf o.n fun i => (aPat o r).testBit (min (i + o.b.read r) (o.n - 1))) ∧
  Writes .rol .rolExt (fun o r => bitsOf o.n fun i => (aPat o r).testBit ((i + (o.n - o.b.read r % o.n)) % o.n))

/-- R201, R202: the logic instructions, the shifts and the rotate. -/
def Obligations.LogicAndShifts : Prop := Claims.LogicBitByBit ∧ Claims.ShiftsAndRotate

/-- R203: clz, ctz and popc count over the bits of a alone; a zero source gives M for clz and ctz. -/
def Sys2Proof.Claims.BitCounts : Prop :=
  let A (o : Opnds) (r : Regs) : Nat := readSlices r.scalar o.a
  WritesU .clz .clzExt (fun o r => if A o r = 0 then 4 * o.a.width else 4 * o.a.width - 1 - Nat.log2 (A o r)) ∧
  WritesU .ctz .ctzExt (fun o r =>
    if A o r = 0 then 4 * o.a.width else ((List.range (4 * o.a.width)).takeWhile fun i => !(A o r).testBit i).length) ∧
  WritesU .popc .popcExt (fun o r => ((List.range (4 * o.a.width)).filter fun i => (A o r).testBit i).length)

/-- R204, R205: sext and zext take the low min(b, M) bits of a; bfx extracts and bfi inserts the field at p of length l, cut at
the end of its operand. -/
def Sys2Proof.Claims.FieldInstructions : Prop :=
  let A (x : XA) (r : Regs) : Nat := readSlices r.scalar (rngOf x.a)
  let P (x : XA) (r : Regs) : Nat := (extSrc x.b x.lit).read r
  let L (x : XA) (r : Regs) : Nat := readSlices r.scalar (rngOf x.c)
  WritesX .sext (fun x r =>
    let n := min (P x r) (4 * x.a.width)
    r.put (rngOf x.d) (bitsOf 64 fun i => n != 0 && (A x r).testBit (min i (n - 1)))) ∧
  WritesX .zext (fun x r => r.put (rngOf x.d) (bitsOf (min (P x r) (4 * x.a.width)) (A x r).testBit)) ∧
  WritesX .bfx (fun x r =>
    let m := 4 * x.a.width
    let l := min (L x r) (m - P x r)
    r.put (rngOf x.d) (bitsOf 64 fun i =>
      l != 0 && (if i < l then (A x r).testBit (P x r + i) else x.ty == 0 && (A x r).testBit (P x r + l - 1)))) ∧
  WritesX .bfi (fun x r =>
    let m := 4 * x.d.width
    let l := min (L x r) (m - P x r)
    r.put (rngOf x.d) (bitsOf m fun i =>
      if P x r ≤ i ∧ i < P x r + l then (A x r).testBit (i - P x r) else (readSlices r.scalar (rngOf x.d)).testBit i))

/-- R203 to R205: counts of bits, extensions and bit fields. -/
def Obligations.BitsAndFields : Prop := Claims.BitCounts ∧ Claims.FieldInstructions

/-- R206 to R209: mov, li, lea, sel and iaddi write to d the value the rule gives, and nothing else. -/
def Obligations.MovesAndAddresses : Prop :=
  WritesU .mov .movExt (fun o r => wrap (uWidth o) (aInt o r)) ∧
  (∀ g o s, s.me.r.guardTrue g = true →
    exec (.li g o) s = .next (wrote 4 (fun r => r.put (win o.d) (wrap 32 o.imm.toInt)) s)) ∧
  WritesX .liExt (fun x r =>
    r.put (rngOf x.d) (wrap 64 (intOf x.ty.toNat ((extSrc x.b x.lit).read r) (4 * (extSrc x.b x.lit).width)))) ∧
  (∀ g o s, s.me.r.guardTrue g = true →
    exec (.lea g o) s = .next (wrote (baseLen o.lit) (fun r =>
      r.put (pair o.d) (wrap 64 (readSlices r.scalar (pair o.a) + sgn ((baseSrc (win o.b) o.lit).read r) 32))) s)) ∧
  WritesX .leaExt (fun x r => r.put (rngOf x.d) (wrap 64 (readSlices r.scalar (rngOf x.a) + bInt (ofXA x) r))) ∧
  WritesX .sel (fun x r => r.put (rngOf x.d)
    (if r.g (x.c.start.toNat % 8) = true then wrap (ofXA x).n (aInt (ofXA x) r) else wrap (ofXA x).n (bInt (ofXA x) r))) ∧
  (∀ g o s, s.me.r.guardTrue g = true →
    exec (.iaddi g o) s = .next (wrote 4 (fun r =>
      r.put (win o.d) (wrap 32 (readSlices r.scalar (win o.d) + o.imm.toInt))) s))

/-! ### Guards, the spill store and smov -/

namespace Sys2Proof.Claims

/-- Guard p has received v and guard q its complement, later writes prevailing and g7 reading 1; nothing else has changed but the
program counter (R157, R186, R210). -/
def wroteGuards (len p q : Nat) (v : Bool) (s t : State) : Prop :=
  t = wrote len (fun r => { r with guards := t.me.r.guards }) s ∧
  ∀ n, n < 8 → t.me.r.g n = if n = 7 then true else if n = q then !v else if n = p then v else s.me.r.g n

/-- Both forms of a compare complete under a true guard. `c` takes N and the operands as patterns of N bits. -/
def ComparesBy (base : Guard → BC → Instr) (ext : Guard → XA → Instr) (c : Nat → Nat → Nat → Bool) : Prop :=
  (∀ g o s, s.me.r.guardTrue g = true → ∃ t, exec (base g o) s = .next t ∧
    wroteGuards (baseLen o.lit) o.p.toNat o.q.toNat
      (c 32 (readSlices s.me.r.scalar (win o.a)) ((baseSrc (win o.b) o.lit).read s.me.r)) s t) ∧
  (∀ g x s, s.me.r.guardTrue g = true → ∃ t, exec (ext g x) s = .next t ∧
    wroteGuards (extLen x.lit) (x.d.start.toNat % 8) (x.d.start.toNat / 8 % 8)
      (let n := 4 * max x.a.width (extSrc x.b x.lit).width
       c n (wrap n (aInt (ofXA x) s.me.r)) (wrap n (bInt (ofXA x) s.me.r))) s t)

/-- The slices of a range in the spill store, lowest slice lowest (R190). -/
def spillRange (t : Thread) (p w : Nat) : Nat := spillRead t.spill p w

end Sys2Proof.Claims

/-- R210: each compare writes its condition (Table 11-3) to the first guard of the pair and the complement to the second. -/
def Sys2Proof.Claims.Compares : Prop :=
  ComparesBy .icmpEq .icmpEqExt (fun _ a b => a == b) ∧ ComparesBy .icmpNe .icmpNeExt (fun _ a b => a != b) ∧
  ComparesBy .icmpLt .icmpLtExt (fun n a b => sgn a n < sgn b n) ∧ ComparesBy .icmpLe .icmpLeExt (fun n a b => sgn a n ≤ sgn b n) ∧
  ComparesBy .icmpLtu .icmpLtuExt (fun _ a b => a < b) ∧ ComparesBy .icmpLeu .icmpLeuExt (fun _ a b => a ≤ b)

/-- R211, R212: gop writes bit 2 ga + gb of its truth table and the complement; gmov moves the guard byte to or from the scalar
file, bit 7 reading 1. -/
def Sys2Proof.Claims.GuardMoves : Prop :=
  (∀ g x s, s.me.r.guardTrue g = true → ∃ t, exec (.gop g x) s = .next t ∧
    wroteGuards 12 (x.d.start.toNat % 8) (x.d.start.toNat / 8 % 8)
      (x.c.bits.getLsbD (2 * (s.me.r.g x.a.start.toNat).toNat + (s.me.r.g x.b.start.toNat).toNat)) s t) ∧
  (∀ g x s, s.me.r.guardTrue g = true → x.d.file = 2 → ∃ t, exec (.gmov g x) s = .next t ∧
    t = wrote 12 (fun r => { r with guards := t.me.r.guards }) s ∧
    ∀ n, n < 7 → t.me.r.g n = (readSlices s.me.r.scalar (rngOf x.a)).testBit n) ∧
  (∀ g x s, s.me.r.guardTrue g = true → x.d.file ≠ 2 →
    exec (.gmov g x) s = .next (wrote 12 (fun r => r.put (rngOf x.d) (bitsOf 8 r.g)) s))

/-- R210 to R212: the compares, and what moves guards. -/
def Obligations.ComparesAndGuards : Prop := Claims.Compares ∧ Claims.GuardMoves

/-- R189 to R191: smov moves between the files, its other lanes keeping their values; spill and fill copy a range to and from the
spill store, lane L of a vector range at p + w L; an index that runs out of the store moves nothing and raises the address trap
with window 0xF in TVAL. -/
def Obligations.MovesBetweenStores : Prop :=
  (∀ g x s, s.me.r.guardTrue g = true → x.d.file = 1 →
    exec (.smov g x) s = .next (wrote (extLen x.lit) (fun r => r.putLane (rngOf x.d) ((extSrc x.b x.lit).read r % 8)
      (wrap (uWidth (ofXA x)) (intOf x.ty.toNat (readSlices r.scalar (rngOf x.a)) (4 * x.a.width)))) s)) ∧
  (∀ g x s, s.me.r.guardTrue g = true → x.d.file ≠ 1 →
    exec (.smov g x) s = .next (wrote (extLen x.lit) (fun r => r.put (rngOf x.d)
      (wrap (uWidth (ofXA x)) (intOf x.ty.toNat (readLane r.vec ((extSrc x.b x.lit).read r % 8) (rngOf x.a)) (4 * x.a.width)))) s)) ∧
  (∀ g x s, s.me.r.guardTrue g = true →
    let p := readZ x.b x.lit s
    let w := x.a.width
    let n := if x.a.file = 1 then 8 * w else w
    p + n ≤ 4096 → ∃ t, exec (.spill g x) s = .next t ∧
      t = s.modMe (fun th => { th with spill := t.me.spill, pc := th.pc + BitVec.ofNat 64 (extLen x.lit) }) ∧
      (x.a.file = 1 → ∀ l, l < 8 → spillRange t.me (p + w * l) w = readLane s.me.r.vec l (rngOf x.a)) ∧
      (x.a.file ≠ 1 → spillRange t.me p w = readSlices s.me.r.scalar (rngOf x.a)) ∧
      ∀ i, i < 4096 → (i < p ∨ p + n ≤ i) → spillRange t.me i 1 = spillRange s.me i 1) ∧
  (∀ g x s, s.me.r.guardTrue g = true →
    let p := readZ x.b x.lit s
    let w := x.d.width
    p + (if x.d.file = 1 then 8 * w else w) ≤ 4096 →
      exec (.fill g x) s = .next (s.modMe fun th => { th with
        r := if x.d.file = 1 then th.r.putLanes (rngOf x.d) 0xFF (fun l => spillRange th (p + w * l) w)
             else th.r.put (rngOf x.d) (spillRange th p w)
        pc := th.pc + BitVec.ofNat 64 (extLen x.lit) })) ∧
  (∀ g x s, s.me.r.guardTrue g = true → s.loading s.cur = false → s.owed s.cur s.nextId = false →
    let p := readZ x.b x.lit s
    let v := BitVec.ofNat 64 (0xF * 2 ^ 60 + p % 2 ^ 60)
    (4096 < p + (if x.a.file = 1 then 8 * x.a.width else x.a.width) →
      exec (.spill g x) s = .next (freezeAt s.cur 0x02 none v s)) ∧
    (4096 < p + (if x.d.file = 1 then 8 * x.d.width else x.d.width) →
      exec (.fill g x) s = .next (freezeAt s.cur 0x02 none v s)))

/-- R181, R183: a range written reads back the low bits of the value, and every range that shares no slice with it keeps its value;
in the vector file, so does every other lane. -/
def Obligations.SlicesReadBack : Prop :=
  (∀ (r : Regs) (d : Rng) (v : Nat), d.start + d.width ≤ 512 →
    readSlices (r.put d v).scalar d = v % 2 ^ (4 * d.width) ∧
    ∀ e : Rng, (e.start + e.width ≤ d.start ∨ d.start + d.width ≤ e.start) →
      readSlices (r.put d v).scalar e = readSlices r.scalar e) ∧
  (∀ (r : Regs) (d : Rng) (l v : Nat), l < 8 → d.start + d.width ≤ 256 →
    readLane (r.putLane d l v).vec l d = v % 2 ^ (4 * d.width) ∧
    ∀ (e : Rng) (m : Nat), m < 8 → e.start + e.width ≤ 256 →
      (m ≠ l ∨ e.start + e.width ≤ d.start ∨ d.start + d.width ≤ e.start) →
      readLane (r.putLane d l v).vec m e = readLane r.vec m e) ∧
  (∀ (r : Regs) (d : Rng) (sel : BitVec 8) (f : Nat → Nat) (l : Nat), l < 8 → d.start + d.width ≤ 256 →
    readLane (r.putLanes d sel f).vec l d =
      if sel.getLsbD l = true then f l % 2 ^ (4 * d.width) else readLane r.vec l d)

/-! ### Control transfer, repetition and done -/

namespace Sys2Proof.Claims

/-- A target that R216 lets through: word-aligned, window 0x3 to 0xD. -/
def goodTarget (a : W64) : Prop := a.toNat % 4 = 0 ∧ 3 ≤ a.toNat / 2 ^ 60 ∧ a.toNat / 2 ^ 60 ≤ 13

/-- A transfer by `i` to `target` completes when the target is good: the program counter moves, any repetition ends, and the link,
if any, is written; otherwise the address trap is raised with TVAL the target, once no older load or Weevil result is owed, and
nothing else changes (R194, R214 to R216). -/
def Transfers (i : Instr) (target : W64) (link : Regs → Regs) (s : State) : Prop :=
  (goodTarget target → exec i s = .next (s.modMe fun t => { t with r := link t.r, pc := target, repst := 0 })) ∧
  (¬ goodTarget target → s.loading s.cur = false → s.owed s.cur s.nextId = false →
    exec i s = .next (freezeAt s.cur 0x02 none target s))

end Sys2Proof.Claims

/-- R213 to R216: nop only advances; br, call, brx, callx and ret go to their targets, call and callx writing the link, and a bad
target traps instead. -/
def Obligations.ControlTransfers : Prop :=
  (∀ g s, exec (.nop g) s = .next (wrote 4 id s)) ∧
  (∀ g x s, exec (.nopExt g x) s = .next (wrote (extLen x.lit) id s)) ∧
  ∀ g s, s.me.r.guardTrue g = true →
    (∀ off, Transfers (.br g off) (BitVec.ofInt 64 (s.me.pc.toNat + 4 * off.toInt)) id s) ∧
    (∀ off, Transfers (.call g off) (BitVec.ofInt 64 (s.me.pc.toNat + 4 * off.toInt))
      (fun r => r.put ⟨496, 16⟩ (s.me.pc.toNat + 4)) s) ∧
    (∀ a, Transfers (.brx g a) (BitVec.ofNat 64 (readSlices s.me.r.scalar (pair a))) id s) ∧
    (∀ a, Transfers (.ret g a) (BitVec.ofNat 64 (readSlices s.me.r.scalar (pair a))) id s) ∧
    (∀ o, Transfers (.callx g o) (BitVec.ofNat 64 (readSlices s.me.r.scalar (pair o.a)))
      (fun r => r.put (pair o.d) (s.me.pc.toNat + 4)) s) ∧
    (∀ x, Transfers (.brxExt g x) (BitVec.ofNat 64 (readSlices s.me.r.scalar (rngOf x.a))) id s) ∧
    (∀ x, Transfers (.retExt g x) (BitVec.ofNat 64 (readSlices s.me.r.scalar (rngOf x.a))) id s) ∧
    (∀ x, Transfers (.callxExt g x) (BitVec.ofNat 64 (readSlices s.me.r.scalar (rngOf x.a)))
      (fun r => r.put (rngOf x.d) (s.me.pc.toNat + 12)) s)

/-- R192, R193, R195: rep with a pass count of 1 to 4,096 starts a repetition at its first pass, with REPST as Table 10-4 lays it
out; a count of 0 skips the n instructions of the body; a greater count raises the repetition count trap with TVAL the count. -/
def Obligations.RepeatStarts : Prop :=
  ∀ g x s, s.me.r.guardTrue g = true →
    let k := readZ x.b x.lit s
    let n := x.d.wm1.toNat + 1
    let pc' := s.me.pc + BitVec.ofNat 64 (extLen x.lit)
    (0 < k → k ≤ 4096 → ∃ t, exec (.rep g x) s = .next t ∧
      t = s.modMe (fun th => { th with repst := t.me.repst, pc := pc' }) ∧
      t.me.repAct = true ∧ t.me.repN = n ∧ t.me.repS = x.d.start.toInt ∧ t.me.repK = k ∧ t.me.repJ = 0 ∧ t.me.repOff = 0) ∧
    (k = 0 → ∀ stop, s.codeSkip s.cur n pc' = .ok stop →
      exec (.rep g x) s = .next (s.modMe fun th => { th with repst := 0, pc := stop })) ∧
    (4096 < k → s.loading s.cur = false → s.owed s.cur s.nextId = false →
      exec (.rep g x) s = .next (freezeAt s.cur 0x0C none (BitVec.ofNat 64 k) s))

namespace Sys2Proof.Claims

/-- Memory of the bulkhead of thread set `u` takes and gives bytes as they stand: nothing there is in error, watched, moved or
withdrawn. -/
def undisturbed (s : State) (u : Nat) : Prop :=
  s.flips = [] ∧ s.poison = [] ∧ (s.bu (bhOf u)).mwatch = [] ∧ (s.bu (bhOf u)).migs = [] ∧ (s.bu (bhOf u)).frames = []

/-- Every byte of a piece lies in the bulkhead of `u`, and its target lets the request in. -/
def letIn (s : State) (u : Nat) (g : Agent) (k : Right) (p : Piece) : Prop :=
  0 < p.n ∧ (∀ i, i < p.n → bhOfPa (p.pa + i) = bhOf u) ∧ reach s g p k = .ok

/-- The stores that the commit window of the issuing thread set holds have gone on their way, in order (R101, R107, R108): one to
another bulkhead is in flight to its gate, whole and not yet performed; where every one is to memory of the own bulkhead that lets
it in, and no release at cluster scope or wider is among them, memory has the bytes of all of them, each over those before it. -/
def windowGoesOut (s t : State) : Prop :=
  let u := s.cur
  let a := s.act u
  let q (h : Held) : StoreReq :=
    { ts := u, gen := s.me.gen, reactor := a.reactor, tag := a.q.tag, bytes := h.bytes, rel := h.rel, wide := h.wide, scope := h.scope
      epoch := h.epoch, priv := a.priv, p := { va := h.va, pa := h.pa, n := h.bytes.length, ord := h.ord, lvl := h.lvl } }
  (∀ h ∈ a.held, bhOfPa h.pa ≠ bhOf u → ∃ id, s.nextId ≤ id ∧ (id, Flight.store (q h)) ∈ t.flight) ∧
  (s.flight = [] → undisturbed s u →
    (∀ h ∈ a.held, letIn s u (farAgent s u a.reactor 0 a.priv) .w (q h).p ∧ (h.rel && h.wide) = false) →
    t.mem = a.held.foldl (fun m h => Memory.wrs m h.pa h.bytes) s.mem)

/-- The issuing thread set waits as it stands. -/
def waitsHere (s t : State) : Prop := t.cur = s.cur ∧ t.thr = s.thr ∧ t.mem = s.mem ∧ t.flight = s.flight

end Sys2Proof.Claims

/-- R217 steps 1 and 2, R101, R107: done waits, as it stands, while an access of its thread set is not acknowledged; then it drains:
the thread set is draining for the end of its activation, no store is held any more and each is on its way or performed, the
activation can no longer be aborted, its held events wait still, and its registers stand. That a drain begins only then is inferred
(log 65), and that a store of the own bulkhead is performed when it goes is the model's choice (log 57). -/
def Obligations.DoneDrains : Prop :=
  ∀ g s, s.me.r.guardTrue g = true → s.me.act.isSome = true →
    ∀ i, (i = .done g ∨ ∃ x, i = .doneExt g x) →
      (allAcked s s.cur = false → ∃ t, exec i s = .next t ∧ waitsHere s t) ∧
      (allAcked s s.cur = true → ∃ t, exec i s = .next t ∧ t.me.mode = .drain true ∧ (t.act s.cur).held = [] ∧ windowGoesOut s t ∧
        (t.act s.cur).restartable = false ∧ (t.act s.cur).msgs = (s.act s.cur).msgs ∧ t.me.r = s.me.r ∧ t.me.pc = s.me.pc ∧
        t.cur = s.cur)

/-! ### False guards -/

/-- R150: an instruction whose guard is false, or whose mask selects no lane, only moves the program counter past itself. -/
def Obligations.FalseGuardOnlyAdvances : Prop :=
  ∀ i r s, i.toRaw = some r → i.wellFormed = true → guarded s.me.r r = false →
    exec i s = .next (wrote (4 * (encode i).length) id s)

/-! ### Memory instructions -/

namespace Sys2Proof.Claims

/-- A counter has gone up by one, and the instruction of `len` bytes is behind the program counter. -/
def issued (len ctr : Nat) (s t : State) : Prop :=
  t.cur = s.cur ∧ t.me.pc = s.me.pc + BitVec.ofNat 64 len ∧ t.me.c ctr = s.me.c ctr + 1

/-- Nothing of the issuing thread set keeps an access from issuing: its guard is true, the counter it names has room, and the
address does not lie in the context aperture. -/
def mayAccess (g : Guard) (x : XM) (n : Nat) (s : State) : Prop :=
  s.me.r.guardTrue g = true ∧ s.me.c x.ctr.toNat < 255 ∧ ∀ c u o, place s.cur (effAddr s.me.r x) n ≠ some (.frame c u o)

/-- The bytes that each piece of an access takes of its value, in order. -/
def cut : List Piece → List Byte → List (Piece × List Byte)
  | [], _ => []
  | p :: ps, bs => (p, bs.take p.n) :: cut ps (bs.drop p.n)

/-- What a restartable activation holds of a store: one entry of the commit window per piece (R100), a release by its class
(Table 05-3), and that at cluster scope or wider where its scope is (R107), which is kept too; `fences` release fences came before
(R102). -/
def heldOf (x : XM) (u fences : Nat) (l : List (Piece × List Byte)) : List Held :=
  l.map fun e => { va := e.1.va, pa := e.1.pa, lvl := e.1.lvl, bytes := e.2, ord := e.1.ord, rel := effAcq e.1.ord (xmRel x)
                   wide := e.1.ord == 0 || wideScope x.scope.toNat u, scope := x.scope.toNat, epoch := fences }

/-- The bytes of a store's pieces, each at its address. -/
def placed (l : List (Piece × List Byte)) : List (Nat × Byte) := l.flatMap fun e => e.2.zipIdx.map fun b => (e.1.pa + b.2, b.1)

/-- Where the issuing thread set stands: where a load that fails takes it back to (R185). -/
def standing (t : Thread) : Spot := { pc := t.pc, repst := t.repst, blk := t.blk, hist := t.hist }

/-- The activation of the issuing thread set cannot be aborted any more, or there is none: what acts beyond it needs no commit. -/
def committedAlready (s : State) : Prop := s.me.act = none ∨ (s.act s.cur).restartable = false

/-- The atomic that the fields of an amo, acas or famo name (R228, R229, R231). -/
def atomicOf (cas : Bool) (x : XM) (r : Regs) : Atomic :=
  let n := Machine.sizeOf x.d.width
  let wide (v w : Nat) : W64 := BitVec.ofNat 64 (wrap 64 (intOf x.ty.toNat v w) % 2 ^ (8 * n))
  { op := if cas then 0 else x.op.toNat, cas := cas, signed := if cas then false else x.ty == 0, size := n,
    b := wide ((extSrc x.b x.lit).read r) (4 * (extSrc x.b x.lit).width),
    e := if cas then wide (readSlices r.scalar (rngOf x.d)) (4 * x.d.width) else 0 }

/-- The lanes of a vector access in order, each with its address (R226). -/
def lanesOf (g : Guard) (x : XM) (gather : Bool) (n : Nat) (s : State) : List (Nat × Nat) :=
  (selLanes (s.me.r.lanes g)).map fun l => (l, laneAddr s.me.r x gather n l)

/-- The bytes that memory holds at pieces, in order. -/
def bytesAt (s : State) (ps : List Piece) : List Byte := ps.flatMap fun p => Memory.rds s.mem p.pa p.n

/-- A load of `ls`, lane by lane, has its data when it issues exactly where every piece is in the own bulkhead, no withdrawn frame
holds it and no earlier request keeps it back; of memory that lets it in, the data are the bytes at each lane's pieces. -/
def gotNow (s : State) (ls : List (Nat × List Piece)) (got : Option (List Got)) : Prop :=
  let ps := ls.flatMap (·.2)
  (got.isSome = true ↔ isNear s.cur ps = true ∧ ps.any (heldPiece s) = false ∧
    blocked s s.nextId { ts := s.cur, ps := ps, wide := false } = false) ∧
  (got.isSome = true → undisturbed s s.cur → (∀ p ∈ ps, letIn s s.cur (s.agent s.cur 0) .r p) →
    got = some (ls.map fun l => { lane := l.1, bytes := bytesAt s l.2 }))

/-- An ld or st of n bytes at offset o of the context frame of thread set `u` of core `c` may go ahead (R30, R336): its guard is true,
its counter has room, it is aligned and privileged, the thread set is frozen, nothing watches it, and what it waits for is over. -/
def mayTouchFrame (g : Guard) (x : XM) (k : Right) (n c u o : Nat) (s : State) : Prop :=
  s.me.r.guardTrue g = true ∧ s.me.c x.ctr.toNat < 255 ∧ place s.cur (effAddr s.me.r x) n = some (.frame c u o) ∧
  effAddr s.me.r x % n = 0 ∧ (s.act s.cur).priv = true ∧ (s.th (c * 4 + u)).mode = .frozen ∧
  watched s.me k (effAddr s.me.r x) n = none ∧ s.loading s.cur = false ∧ soDvOut s s.cur = false ∧
  (xmRel x = true → wideScope x.scope.toNat s.cur = true → allAcked s s.cur = true)

/-- An ld or st that names a context frame is trapped: a misaligned one, and one of a thread set that is not frozen, by the address
trap, an aligned unprivileged one by the privilege trap (R30). -/
def frameTraps (i : Instr) (g : Guard) (x : XM) (n : Nat) (s : State) : Prop :=
  ∀ c u o, s.me.r.guardTrue g = true → s.me.c x.ctr.toNat < 255 → place s.cur (effAddr s.me.r x) n = some (.frame c u o) →
    s.loading s.cur = false → s.owed s.cur s.nextId = false →
    let ea := effAddr s.me.r x
    let traps (code : Nat) : Prop := exec i s = .next (freezeAt s.cur code none (BitVec.ofNat 64 ea) s)
    (ea % n ≠ 0 → traps 0x02) ∧
    (ea % n = 0 → (s.act s.cur).priv = false → traps 0x04) ∧
    (ea % n = 0 → (s.act s.cur).priv = true → (s.th (c * 4 + u)).mode ≠ .frozen → traps 0x02)

end Sys2Proof.Claims

/-- R184, R221 to R223, R226, R187: a load that passes its checks is put in flight with its destination, its counter goes up, and
the registers stand until the data arrive; data of the own bulkhead that no earlier request keeps back are read at once, and are the
bytes that memory holds at each lane's pieces. That they are read when the load issues is the model's choice (log 57). R30: an ld of
a context frame gives d the frame's bytes at once, or traps. -/
def Obligations.LoadsIssue : Prop :=
  (∀ g x s ps, mayAccess g x (Machine.sizeOf x.d.width) s →
    checkAccess s s.cur .r (effAddr s.me.r x) (Machine.sizeOf x.d.width) = .ok ps → soWaits s x ps false = false →
    ∃ t got, exec (.ld g x) s = .next t ∧ issued (memLen x) x.ctr.toNat s t ∧ t.me.r = s.me.r ∧
      (s.nextId, Flight.load s.cur x.ctr.toNat { scope := x.scope.toNat, start := x.d.start.toNat, width := x.d.width, lanes := [(0, ps)] }
        none (ps.any fun p => effAcq p.ord (xmAcq x)) false s.me.r (standing s.me) got) ∈ t.flight ∧ gotNow s [(0, ps)] got) ∧
  (∀ g x s ls, s.me.r.lanes g ≠ 0 → s.me.c x.ctr.toNat < 255 →
    checkLanes s .r (Machine.sizeOf x.d.width) (lanesOf g x (x.b.file = 1) (Machine.sizeOf x.d.width) s) = .ok ls →
    soWaits s x (ls.flatMap (·.2.2)) false = false →
    ∃ t got, exec (.vld g x) s = .next t ∧ issued (memLen x) x.ctr.toNat s t ∧ t.me.r = s.me.r ∧
      (s.nextId, Flight.load s.cur x.ctr.toNat
        { scope := x.scope.toNat, vec := true, start := x.d.start.toNat, width := x.d.width, lanes := ls.map fun l => (l.1, l.2.2) } none
        ((ls.flatMap (·.2.2)).any fun p => effAcq p.ord (xmAcq x)) false s.me.r (standing s.me) got) ∈ t.flight ∧
      gotNow s (ls.map fun l => (l.1, l.2.2)) got) ∧
  (∀ g x s c u o, let n := Machine.sizeOf x.d.width
    mayTouchFrame g x .r n c u o s → ∃ t, exec (.ld g x) s = .next t ∧ t.cur = s.cur ∧
      t.me.pc = s.me.pc + BitVec.ofNat 64 (memLen x) ∧ t.me.ctr = s.me.ctr ∧
      t.me.r = s.me.r.put (rngOf x.d) (frameRead (s.th (c * 4 + u)) o n) ∧ t.mem = s.mem ∧ t.flight = s.flight ∧
      ∀ v, v ≠ s.cur → t.th v = s.th v) ∧
  (∀ g x s, frameTraps (.ld g x) g x (Machine.sizeOf x.d.width) s)

/-- R100, R222, R225, R226: a store of a restartable activation to places that its commit window holds adds the store's bytes to
the window, in order, when they fit; memory and every register stand, and no counter moves. Parts that follow one another within
a line are held as one, which changes no byte and no address. -/
def Sys2Proof.Claims.StoresAreHeld : Prop :=
  let Holds (i : Instr) (x : XM) (l : List (Piece × List Byte)) (s : State) : Prop :=
    let held := heldOf x s.cur (s.act s.cur).fences (joinParts l)
    s.me.act.isSome = true → (s.act s.cur).restartable = true → s.loading s.cur = false →
    (∀ e ∈ joinParts l, holds s s.cur e.1 = true) → windowFits (s.act s.cur) held 0 = true →
    ∃ t, exec i s = .next t ∧ t.me.pc = s.me.pc + BitVec.ofNat 64 (memLen x) ∧ t.cur = s.cur ∧
      (t.act s.cur).held = (s.act s.cur).held ++ held ∧ t.me.r = s.me.r ∧ t.me.ctr = s.me.ctr ∧
      t.flight = s.flight ∧ ∀ a, Memory.rd t.mem a = Memory.rd s.mem a
  (∀ l : List (Piece × List Byte), (∀ e ∈ l, e.2.length = e.1.n) → placed (joinParts l) = placed l) ∧
  (∀ g x s ps, mayAccess g x (Machine.sizeOf x.b.width) s →
    checkAccess s s.cur .w (effAddr s.me.r x) (Machine.sizeOf x.b.width) = .ok ps →
    Holds (.st g x) x
      (cut ps (leBytes (Machine.sizeOf x.b.width)
        (wrap (8 * Machine.sizeOf x.b.width) (intOf x.ty.toNat (readZ x.b x.lit s) (4 * x.b.width))))) s) ∧
  (∀ g x s ls, s.me.r.lanes g ≠ 0 → s.me.c x.ctr.toNat < 255 →
    let scatter := x.lit.isNone && x.d.file = 1
    let v : Slot := if scatter then x.d else x.b
    let val (l : Nat) : Nat := match x.lit with
      | some w => w.toNat % 2 ^ (4 * v.width)
      | none => readLane s.me.r.vec l (rngOf v)
    checkLanes s .w (Machine.sizeOf v.width) (lanesOf g x scatter (Machine.sizeOf v.width) s) = .ok ls →
    Holds (.vst g x) x
      (ls.flatMap fun l => cut l.2.2 (leBytes (Machine.sizeOf v.width)
        (wrap (8 * Machine.sizeOf v.width) (intOf x.ty.toNat (val l.1) (4 * v.width))))) s)

/-- R100, R25: a store to a place of the own scratchpad that the window does not hold (scratch space, the private area) is
performed at once, where no earlier request keeps it back and the private area that it names, if any, is the issuer's: the stored
bytes read back at the piece's address, and every other byte of memory is unchanged. The statement is about a core whose bulkhead
watches nothing and moves no page, with memory in its canonical form and no bit error in the sectors stored to. -/
def Sys2Proof.Claims.StoreInPlace : Prop :=
  ∀ g x s p, mayAccess g x (Machine.sizeOf x.b.width) s → s.loading s.cur = false →
    checkAccess s s.cur .w (effAddr s.me.r x) (Machine.sizeOf x.b.width) = .ok [p] →
    isSp p.pa = true → spCore p.pa = coreOf s.cur → holds s s.cur p = false → effAcq p.ord (xmRel x) = false →
    bhOfPa p.pa = bhOf s.cur → p.n = Machine.sizeOf x.b.width → (s.bu (bhOf s.cur)).mwatch = [] → (s.bu (bhOf s.cur)).migs = [] →
    ownerNow s (farAgent s s.cur (s.act s.cur).reactor 0 (s.act s.cur).priv) p = true →
    blocked s s.nextId { ts := s.cur, ps := [p], store := true, wide := p.ord == 0 || wideScope x.scope.toNat s.cur,
                         epoch := (s.act s.cur).fences } = false →
    (∀ i, i < p.n → Map.get? s.flips ((p.pa + i) / 64) = none) → Memory.wf s.mem = true →
    let v := wrap (8 * p.n) (intOf x.ty.toNat (readZ x.b x.lit s) (4 * x.b.width))
    ∃ t, exec (.st g x) s = .next t ∧ t.me.pc = s.me.pc + BitVec.ofNat 64 (memLen x) ∧ t.me.r = s.me.r ∧ t.flight = s.flight ∧
      (∀ i, i < p.n → Memory.rd t.mem (p.pa + i) = BitVec.ofNat 8 (v / 256 ^ i)) ∧
      ∀ a, (a < p.pa ∨ p.pa + p.n ≤ a) → Memory.rd t.mem a = Memory.rd s.mem a

/-- R107, R108, R187, R222: a store past the commit point, to one piece outside the own core's scratchpad, is in flight under its
counter until it is acknowledged, and its counter goes up: to HBM or another core's scratchpad of the own bulkhead it is performed,
and its bytes, and no others, are in memory; to another bulkhead it is still to be performed at the gate, and memory stands. A store
with release order at cluster scope or wider goes once everything earlier is acknowledged. -/
def Sys2Proof.Claims.StoreCommitted : Prop :=
  ∀ g x s p, mayAccess g x (Machine.sizeOf x.b.width) s → s.loading s.cur = false → committedAlready s →
    checkAccess s s.cur .w (effAddr s.me.r x) (Machine.sizeOf x.b.width) = .ok [p] → p.n = Machine.sizeOf x.b.width →
    isSp p.pa = false ∨ spCore p.pa ≠ coreOf s.cur →
    let a := s.act s.cur
    let bs := leBytes p.n (wrap (8 * p.n) (intOf x.ty.toNat (readZ x.b x.lit s) (4 * x.b.width)))
    let q : StoreReq :=
      { ts := s.cur, gen := s.me.gen, reactor := a.reactor, tag := a.q.tag, ctr := some x.ctr.toNat, group := s.nextId, p := p
        bytes := bs, rel := effAcq p.ord (xmRel x), wide := p.ord == 0 || wideScope x.scope.toNat s.cur, scope := x.scope.toNat
        epoch := a.fences, priv := a.priv }
    (q.rel = true → q.wide = true → allAcked s s.cur = true) →
    let Sent (q : StoreReq) (t : State) : Prop :=
      exec (.st g x) s = .next t ∧ issued (memLen x) x.ctr.toNat s t ∧ t.me.r = s.me.r ∧ (s.nextId, Flight.store q) ∈ t.flight
    (bhOfPa p.pa ≠ bhOf s.cur → ∃ t, Sent q t ∧ t.mem = s.mem) ∧
    (blocked s s.nextId q.req = false → undisturbed s s.cur → letIn s s.cur (farAgent s s.cur a.reactor 0 a.priv) .w p →
      ∃ t, Sent { q with performed := true } t ∧ t.mem = Memory.wrs s.mem p.pa bs)

/-- R30: an st of a context frame puts its bytes into the frame at once, and changes nothing else, or it traps. -/
def Sys2Proof.Claims.StoreToFrame : Prop :=
  (∀ g x s c u o, let n := Machine.sizeOf x.b.width
    mayTouchFrame g x .w n c u o s → c * 4 + u ≠ s.cur → ∃ t, exec (.st g x) s = .next t ∧ t.cur = s.cur ∧
      t.me.pc = s.me.pc + BitVec.ofNat 64 (memLen x) ∧ t.me.r = s.me.r ∧ t.me.ctr = s.me.ctr ∧
      t.th (c * 4 + u) = frameWrite (s.th (c * 4 + u)) o n (wrap (8 * n) (intOf x.ty.toNat (readZ x.b x.lit s) (4 * x.b.width))) ∧
      t.mem = s.mem ∧ t.flight = s.flight ∧ ∀ v, v ≠ s.cur → v ≠ c * 4 + u → t.th v = s.th v) ∧
  ∀ g x s, frameTraps (.st g x) g x (Machine.sizeOf x.b.width) s

/-- R25, R30, R100, R107, R108, R222, R225, R226: where the bytes of a store go. That a near store is performed when it issues is the
model's choice (log 57). -/
def Obligations.StoresAreHeldOrPerformed : Prop :=
  Claims.StoresAreHeld ∧ Claims.StoreInPlace ∧ Claims.StoreCommitted ∧ Claims.StoreToFrame

/-- R96, R184, R222, R223, R226: the data of a load that has been performed without a failure reach its destination, lane by lane for
a vector load, the load leaves the work in flight, and its counter goes down; no other slice changes and memory is unchanged. A store
that the thread set holds overlays the data where it stands. (Of loads that carry no flag.) -/
def Obligations.LoadDataReachesRegisters : Prop :=
  ∀ s id u c d at? acq rel snap spot (got : List (Nat × List Byte)),
    s.fl? id = some (.load u c d at? acq rel snap spot (some (got.map fun l => { lane := l.1, bytes := l.2 }))) →
    (d.vec = false → got.length = 1) →
    let seen (l : Nat × List Byte) : Nat :=
      leNat (overlayPieces (s.act u).held (((d.lanes.find? fun e => e.1 == l.1).map (·.2)).getD []) l.2)
    ∃ t, exec (.loadDataArrival id) s = .next t ∧
      (d.vec = false → ∀ l ∈ got, (t.th u).r = (s.th u).r.put ⟨d.start, d.width⟩ (seen l)) ∧
      (d.vec = true → (t.th u).r = got.foldl (fun r l => r.putLane ⟨d.start, d.width⟩ l.1 (seen l)) (s.th u).r) ∧
      ((s.act u).held = [] → ∀ l ∈ got, seen l = leNat l.2) ∧
      (t.th u).c c = (s.th u).c c - 1 ∧
      (t.th u).pc = (s.th u).pc ∧ t.fl? id = none ∧ t.mem = s.mem ∧ ∀ v, v ≠ u → t.th v = s.th v

/-- R228, R229, R230 to R234, R340: an atomic, or a Weevil operation, that passes its checks once the activation has committed is
put in flight under its counter: amo and acas at the core, famo, lenq and pchase at the Weevil of the target, mcas with the words
of its descriptor; a Weevil operation takes the next number of its reactor's sequence. -/
def Obligations.AtomicsIssue : Prop :=
  (∀ cas g x s p, committedAlready s → s.me.r.guardTrue g = true → s.me.c x.ctr.toNat < 255 → s.loading s.cur = false →
    effAddr s.me.r x % Machine.sizeOf x.d.width = 0 →
    checkAccess s s.cur .a (effAddr s.me.r x) (Machine.sizeOf x.d.width) = .ok [p] → soWaits s x [p] (xmRel x) = false →
    ∃ t got, exec (if cas then .acas g x else .amo g x) s = .next t ∧ issued (memLen x) x.ctr.toNat s t ∧ t.me.r = s.me.r ∧
      (s.nextId, Flight.load s.cur x.ctr.toNat
        { scope := x.scope.toNat, start := x.d.start.toNat, width := x.d.width, lanes := [(0, [p])] }
        (some (atomicOf cas x s.me.r)) (effAcq p.ord (xmAcq x)) (effAcq p.ord (xmRel x)) s.me.r (standing s.me) got) ∈ t.flight) ∧
  ∀ g x s p, s.me.r.guardTrue g = true → s.me.c x.ctr.toNat < 255 → s.loading s.cur = false →
    soWaits s x [p] (xmRel x) = false → s.hasRe (s.act s.cur).reactor = true →
    let r := (s.act s.cur).reactor
    let ea := effAddr s.me.r x
    let key := wrap 64 (intOf x.ty.toNat (readZ x.b x.lit s) (4 * (extSrc x.b x.lit).width))
    let Request (d : Option (Nat × Nat)) (w : Weevil) : WeevilReq :=
      { ts := s.cur, gen := s.me.gen, reactor := r, tag := ((s.act s.cur).q.tagt, (s.act s.cur).q.tagm)
        seq := (s.re r).seqWeev, ctr := x.ctr.toNat, d := d, va := p.va, p := p, w := w, acq := effAcq p.ord (xmAcq x)
        rel := effAcq p.ord (xmRel x), scope := x.scope.toNat, priv := (s.act s.cur).priv }
    let Sent (i : Instr) (d : Option (Nat × Nat)) (w : Weevil) : Prop :=
      ∃ t, exec i s = .next t ∧ issued (memLen x) x.ctr.toNat s t ∧ t.me.r = s.me.r ∧ t.mem = s.mem ∧
        (t.re r).seqWeev = (s.re r).seqWeev + 1 ∧ (s.nextId, Flight.weevil (Request d w)) ∈ t.flight
    (committedAlready s → ea % Machine.sizeOf x.d.width = 0 → checkAccess s s.cur .a ea (Machine.sizeOf x.d.width) = .ok [p] →
      Sent (.famo g x) (some (x.d.start.toNat, x.d.width)) (.famo (atomicOf false x s.me.r))) ∧
    (committedAlready s → ea % 16 = 0 → key % 16 = 0 → checkAccess s s.cur .a ea 16 = .ok [p] →
      Sent (.lenq g x) none (.lenq key)) ∧
    (ea % 16 = 0 → judgeAccess s s.cur .a true (some .r) ea 16 = .ok [p] →
      Sent (.pchase g x) (some (x.d.start.toNat, x.d.width)) (.pchase (BitVec.ofNat 64 key) 0 false false none)) ∧
    (committedAlready s → ea % 8 = 0 →
      let q := readZ x.b x.lit s
      q / 2 ^ 60 = 1 → q % 8 = 0 → q % 2 ^ 60 + 72 ≤ 0x60000 →
      ∀ ds, checkAccess s s.cur .r q 72 = .ok ds → atOnce s s.cur ds false = true →
        let o := readPieces (s.agent s.cur 0) ds s
        let bs := overlayPieces (s.act s.cur).held ds o.bytes
        let h := leNat (bs.take 8)
        o.sev < 3 → h < 4 → ea % 64 + 8 * (h + 1) ≤ 64 →
        checkAccess s s.cur .a ea (8 * (h + 1)) = .ok [p] → watched s.me .w (q + 8) (8 * (h + 1)) = none →
        ∃ t, exec (.mcas g x) s = .next t ∧ issued (memLen x) x.ctr.toNat s t ∧ t.me.r = s.me.r ∧
          (s.nextId, Flight.weevil (Request (some (x.d.start.toNat, x.d.width))
            (.mcas q (wordsAt bs 8 (h + 1)) (wordsAt bs 0x28 (h + 1))))) ∈ t.flight)

/-! ### Synchronisation and address instructions -/

/-- R102, R103, R107, R235 to R237, R187: fence, wait and commit. A fence that names no path, a wait for a counter at zero and a
commit with nothing outstanding, once the activation is past its commit point, only advance. A fence completes once no older load
is in flight, unless it is a release only, and everything earlier is acknowledged, if it is a release at cluster scope or wider;
naming the load/store path and an engine's, it shows that engine the held stores, and as a release of the load/store path it parts
the stores held before it from those after; how a fence marks the stores that the window holds is inferred (log 65). A commit of a
restartable activation waits, as it stands, while an access of its thread set is not acknowledged, and then starts the drain. -/
def Obligations.Synchronises : Prop :=
  ∀ g x s, s.me.r.guardTrue g = true →
    let m := readZ x.b x.lit s % 64
    (m = 0 → exec (.fence g x) s = .next (wrote (memLen x) id s)) ∧
    (m ≠ 0 → (x.ord = 2 ∨ s.loading s.cur = false) → (x.ord = 1 ∨ x.scope.toNat < 2 ∨ allAcked s s.cur = true) →
      ∃ t, exec (.fence g x) s = .next t ∧
        t.me.pc = s.me.pc + BitVec.ofNat 64 (memLen x) ∧ t.me.r = s.me.r ∧ t.mem = s.mem ∧ t.flight = s.flight ∧
        (t.act s.cur).held = ((s.act s.cur).held.map fun h => { h with
          visCopy := h.visCopy || (m.testBit 0 && m.testBit 1), visMat := h.visMat || (m.testBit 0 && m.testBit 2) }) ∧
        (s.me.act.isSome = true → (t.act s.cur).fences = (s.act s.cur).fences +
          if x.ord ≠ 1 ∧ 2 ≤ x.scope.toNat ∧ m.testBit 0 = true then 1 else 0)) ∧
    (s.me.c x.ctr.toNat = 0 → exec (.wait g x) s = .next (wrote (memLen x) id s)) ∧
    (committedAlready s → allAcked s s.cur = true → exec (.commit g x) s = .next (wrote (memLen x) id s)) ∧
    (s.me.act.isSome = true → (s.act s.cur).restartable = true →
      (allAcked s s.cur = false → ∃ t, exec (.commit g x) s = .next t ∧ waitsHere s t) ∧
      (allAcked s s.cur = true → ∃ t, exec (.commit g x) s = .next t ∧ t.me.mode = .drain false ∧ (t.act s.cur).held = [] ∧
        windowGoesOut s t ∧ (t.act s.cur).restartable = false ∧ t.me.r = s.me.r ∧ t.me.pc = s.me.pc))

/-- R31, R238: cvta converts a private, local, cluster or scratchpad-window address to its cluster form, or to its scratchpad-window
form where the scope field is 5 (Table 02-4); a scratchpad-window address of another cluster has no cluster form, and such an address,
or one of the context aperture, of a paged window or of no place, raises the address trap and writes nothing. -/
def Sys2Proof.Claims.AddressConversion : Prop :=
  ∀ g x s, s.me.r.guardTrue g = true →
    let ea := effAddr s.me.r x
    let lo := ea % 2 ^ 60
    let To (m off : Nat) : Prop := exec (.cvta g x) s = .next (wrote (memLen x) (fun r => r.put (rngOf x.d)
      (if x.scope = 5 then 0xE * 2 ^ 60 + (m / 32768) * 2 ^ 34 + (m / 1024 % 32) * 2 ^ 29 + (m % 1024) * 2 ^ 19 + off
       else 2 * 2 ^ 60 + (m % 256) * 2 ^ 19 + off)) s)
    let Traps : Prop := s.loading s.cur = false → s.owed s.cur s.nextId = false →
      exec (.cvta g x) s = .next (freezeAt s.cur 0x02 none (BitVec.ofNat 64 ea) s)
    let far := (lo / 2 ^ 34) * 32768 + (lo / 2 ^ 29 % 32) * 1024 + lo / 2 ^ 19 % 1024
    (ea / 2 ^ 60 = 0 → lo < 0x4000 → To (coreOf s.cur) (0x60000 + tsOf s.cur * 0x4000 + lo)) ∧
    (ea / 2 ^ 60 = 1 → lo < 0x70000 → To (coreOf s.cur) lo) ∧
    (ea / 2 ^ 60 = 2 → lo < 2 ^ 27 → lo % 2 ^ 19 < 0x70000 → To (cluOf s.cur * 256 + lo / 2 ^ 19) (lo % 2 ^ 19)) ∧
    (ea / 2 ^ 60 = 0xE → lo < 2 ^ 44 → lo / 2 ^ 29 % 32 < 24 → lo % 2 ^ 19 < 0x70000 →
      (x.scope = 5 ∨ far / 256 = cluOf s.cur → To far (lo % 2 ^ 19)) ∧ (x.scope ≠ 5 → far / 256 ≠ cluOf s.cur → Traps)) ∧
    ((∀ m off, place s.cur ea 1 ≠ some (.sp m off)) → (∀ m off, place s.cur ea 1 ≠ some (.far m off)) → Traps)

/-- R239, R240: pf and cwb change no byte of memory and no register; an empty range only advances. On a range that is checked, in
a bulkhead that moves no page, and of the own bulkhead's HBM, pf puts each line into the cache, if its cache has room for them,
and cwb leaves each line clean. -/
def Sys2Proof.Claims.CacheInstructions : Prop :=
  ∀ g x s, s.me.r.guardTrue g = true → s.me.c x.ctr.toNat < 255 →
    let n := min (readZ x.b x.lit s) 65536
    (n = 0 → exec (.pf g x) s = .next (wrote (memLen x) id s) ∧ exec (.cwb g x) s = .next (wrote (memLen x) id s)) ∧
    (∀ p, 0 < n → isSp p.pa = false → bhOfPa p.pa = bhOf s.cur → 0 < p.n → bhOfPa (p.pa + p.n - 1) = bhOf s.cur →
      isSp (p.pa + p.n - 1) = false → (s.bu (bhOf s.cur)).migs = [] → (s.bu (bhOf s.cur)).frames = [] →
      (judgeAccess s s.cur .r false none (effAddr s.me.r x) n = .ok [p] →
        (s.cached.filter fun e => e.1 / 2 ^ 31 == p.pa / 64 / 2 ^ 31).length + p.n / 64 + 2 ≤ cacheCap →
        ∃ t, exec (.pf g x) s = .next t ∧
        t.me.pc = s.me.pc + BitVec.ofNat 64 (memLen x) ∧ t.me.r = s.me.r ∧ t.mem = s.mem ∧
        ∀ l, p.pa / 64 ≤ l → l ≤ (p.pa + p.n - 1) / 64 → (Map.get? t.cached l).isSome = true) ∧
      (judgeAccess s s.cur .w false none (effAddr s.me.r x) n = .ok [p] → ∃ t, exec (.cwb g x) s = .next t ∧
        t.me.pc = s.me.pc + BitVec.ofNat 64 (memLen x) ∧ t.me.r = s.me.r ∧ t.mem = s.mem ∧
        ∀ l, p.pa / 64 ≤ l → l ≤ (p.pa + p.n - 1) / 64 → Map.get? t.cached l ≠ some true))

/-- R31, R238 to R240: cvta, pf and cwb. -/
def Obligations.AddressesAndCaches : Prop := Claims.AddressConversion ∧ Claims.CacheInstructions

/-! ### Messages, time, launch records and barriers -/

namespace Sys2Proof.Claims

/-- The tag of an event sent with an after-delay: the next microstep for 0, else that much later at microstep 0 (R127). -/
def tagAfter (tag : W64 × W32) (d : Nat) : W64 × W32 := if d = 0 then (tag.1, tag.2 + 1) else (tag.1 + BitVec.ofNat 64 d, 0)
/-- The tag of R127 exists. -/
def tagFits (tag : W64 × W32) (d : Nat) : Prop := if d = 0 then tag.2.toNat + 1 < 2 ^ 32 else tag.1.toNat + d < 2 ^ 64

/-- The valid connections of an output port of the issuer's reactor, with their indexes (R241). -/
def connsOf (s : State) (port : Nat) : List (Conn × Nat) :=
  (s.re (s.act s.cur).reactor).conns.zipIdx.filter fun c => c.1.bits.getLsbD 0 && (c.1.bits.extractLsb' 1 4).toNat == port
/-- The events that a send of the issuing activation puts on connections (R127, R241, R242). -/
def eventsOf (s : State) (cs : List (Conn × Nat)) (payload : W64) : List Msg :=
  let a := s.act s.cur
  cs.map fun c => { reactor := a.reactor, conn := c.2, tagt := (tagAfter a.q.tag (c.1.bits.extractLsb' 55 32).toNat).1,
                    tagm := (tagAfter a.q.tag (c.1.bits.extractLsb' 55 32).toNat).2, sender := BitVec.ofNat 32 s.cur,
                    payload := payload }

end Sys2Proof.Claims

/-- R107, R114, R127, R241 to R243: in a restartable activation send holds one event for every valid connection of its port, and
sendr one for the connection that a names, with the tag of R127, when the commit window has room; past the commit point the events go
on their way at once, in order, when the send queue has room, and wait there for what the thread set has not had acknowledged; nothing
else of the thread set changes but the program counter. An index that names no valid connection raises the bad connection trap. -/
def Obligations.SendsAreHeld : Prop :=
  ∀ g x s, s.me.r.guardTrue g = true →
    let a := s.act s.cur
    let Held (i : Instr) (cs : List (Conn × Nat)) (payload : W64) : Prop :=
      (∀ c ∈ cs, tagFits a.q.tag (c.1.bits.extractLsb' 55 32).toNat) →
      (s.me.act.isSome = true → a.restartable = true → windowFits a [] cs.length = true →
        exec i s = .next (s.modMe fun t => { t with
          act := t.act.map fun b => { b with msgs := b.msgs ++ eventsOf s cs payload }
          pc := t.pc + BitVec.ofNat 64 (memLen x) })) ∧
      (committedAlready s →
        (cs ≠ [] → allAcked s s.cur = false → ∃ t, exec i s = .next t ∧ waitsHere s t) ∧
        (cs = [] ∨ allAcked s s.cur = true → (s.co (coreOf s.cur)).sendq.length + cs.length ≤ 64 →
          exec i s = .next (wrote (memLen x) id ((eventsOf s cs payload).foldl (fun s m => leave m s) s))) ∧
        (∀ c, cs = [c] → allAcked s s.cur = true → (s.co (coreOf s.cur)).sendq.length < 64 → (s.re a.reactor).core = coreOf s.cur →
          s.hasRe a.reactor = true → (s.re a.reactor).conns[c.2]? = some c.1 → waitingOn s a.reactor c.2 = [] → c.1.dead = false →
          0 < c.1.f → bhOfReac c.1.target = bhOfReac a.reactor →
          ∃ t q c', exec i s = .next t ∧ (s.nextId, Flight.entry c.1.target q (.conn a.reactor c.2)) ∈ t.flight ∧
            q.tag = tagAfter a.q.tag (c.1.bits.extractLsb' 55 32).toNat ∧ q.payload = payload ∧ q.sender = BitVec.ofNat 32 s.cur ∧
            (t.re a.reactor).conns[c.2]? = some c' ∧ c'.f = c.1.f - 1))
    let w (v n : Nat) : Nat := wrap 32 (intOf x.ty.toNat v n)
    let av := readSlices s.me.r.scalar (rngOf x.a)
    let b := extSrc x.b x.lit
    Held (.send g x) (connsOf s (x.d.start.toNat % 16)) (BitVec.ofNat 64 (w av (4 * x.a.width) +
      (if x.d.start.getLsbD 4 = true then w (b.read s.me.r) (4 * b.width) * 2 ^ 32 else 0))) ∧
    (∀ c, (s.re a.reactor).conns[av]? = some c → c.bits.getLsbD 0 = true →
      Held (.sendr g x) [(c, av)] (BitVec.ofInt 64 (intOf x.ty.toNat (b.read s.me.r) (4 * b.width)))) ∧
    ((∀ c, (s.re a.reactor).conns[av]? = some c → c.bits.getLsbD 0 = false) → s.loading s.cur = false →
      s.owed s.cur s.nextId = false → exec (.sendr g x) s = .next (freezeAt s.cur 0x0A none (BitVec.ofNat 64 av) s))

/-- R244, R245, R138, R139, R408, R409: tnow writes local time in ticks; in record mode it records its reading too, and waits while
the trace unit takes no record, and in replay it writes the recorded reading, or local time and notes that the replay diverges. tcur
writes the tag time of the activation, and lstat the status word of a launch record. Once the activation has committed, lpatch writes
the status that patching the record gives; larm that of arming it, and the gang beside status 0, and waits while a bank that arming
is to rewrite is in use (inferred, log 41) and while an access of its thread set is not acknowledged; larm with bit 15 of a set
disarms: it gives the status that refuses, or puts the release in flight, the instances of the gang marked as disarming, and stalls
the thread set, with 0 in d, until the release. -/
def Sys2Proof.Claims.TimeAndRecords : Prop :=
  ∀ g x s, s.me.r.guardTrue g = true →
    let a := readSlices s.me.r.scalar (rngOf x.a)
    let no := a % 4096
    let bh := bhOf s.cur
    let act := s.act s.cur
    let ticks := s.ns bh / 2 ^ ((s.bu bh).pcfg.toNat % 32)
    let Reads (v : Nat) (t : State) : Prop := exec (.tnow g x) s = .next t ∧
      t.me.pc = s.me.pc + BitVec.ofNat 64 (memLen x) ∧ t.me.r = s.me.r.put (rngOf x.d) v
    let gives (v : Nat) (t : State) : State := wrote (memLen x) (fun r => r.put (rngOf x.d) v) t
    (rpMode (s.bu bh) = 0 → ∃ t, Reads ticks t ∧ t.mem = s.mem) ∧
    (rpMode (s.bu bh) = 1 → traceFull (s.bu bh) = true → exec (.tnow g x) s = .next s) ∧
    (rpMode (s.bu bh) = 1 → traceFull (s.bu bh) = false → ∃ t, Reads ticks t ∧
      let r : Rec := { kind := 6, tagt := act.q.tagt.toNat, tagm := act.q.tagm.toNat, coord := s.cur, route := act.q.route.toNat,
                       tarr := ticks, outcome := min act.attempt 255 }
      t.mem = (traceWrite bh r.bytes (some (act.tnows % 65536)) s).mem) ∧
    (rpMode (s.bu bh) = 2 → (∀ v, feedTnow s s.cur = some v → ∃ t, Reads v t ∧ t.mem = s.mem) ∧
      (feedTnow s s.cur = none → ∃ t, Reads ticks t ∧ (t.bu bh).rpctl.getLsbD 61 = true)) ∧
    exec (.tcur g x) s = .next (gives act.q.tagt.toNat s) ∧
    exec (.lstat g x) s = .next (gives (recordStat s bh no) s) ∧
    (a.testBit 15 = false → committedAlready s → allAcked s s.cur = true → act.q.tagm.toNat < 2 ^ 32 - 1 →
      let o := arm bh no (act.q.tagt, act.q.tagm + 1) (BitVec.ofNat 32 s.cur) (some act.reactor) false s
      exec (.larm g x) s = .next (if armWaits s bh no = true then s
        else gives (if o.2.1 = 0 then o.2.2 * 4096 else o.2.1) o.1)) ∧
    (a.testBit 15 = true → committedAlready s →
      let part := s.partOf bh
      let gang := a / 65536 % 2 ^ 20
      (recordPa s bh no = none → exec (.larm g x) s = .next (gives 1 s)) ∧
      (recordPa s bh no ≠ none →
        (gangLive s part gang no = none → exec (.larm g x) s = .next (gives 9 s)) ∧
        (∀ live, gangLive s part gang no = some live →
          (act.reactor ∈ live.keys → exec (.larm g x) s = .next (gives 10 s)) ∧
          (act.reactor ∉ live.keys → ∃ t id, exec (.larm g x) s = .next t ∧ t.cur = s.cur ∧ t.me.mode = .stalled id ∧
            t.me.r = s.me.r.put (rngOf x.d) 0 ∧ t.me.pc = s.me.pc + BitVec.ofNat 64 (memLen x) ∧
            (id, Flight.disarm part gang no (some s.cur) none) ∈ t.flight ∧
            ∀ r ∈ live.keys, s.hasRe r = true → (t.re r).disarming = true)))) ∧
    (committedAlready s →
      let v := BitVec.ofInt 64 (intOf x.ty.toNat (readZ x.b x.lit s) (4 * (extSrc x.b x.lit).width))
      let o := patchRecord bh no (a / 2 ^ 12 % 8) v s
      exec (.lpatch g x) s = .next (gives o.2 o.1))

/-- R246, R358: an arrival at a barrier that others are still to reach counts and waits; the last arrival releases the episode,
the count starts anew, and the thread set goes on, as does each waiting one once its episode is over; a barrier number over 15, or
a barrier without participants, raises the barrier trap. -/
def Sys2Proof.Claims.BarrierArrivals : Prop :=
  ∀ g x s, s.me.r.guardTrue g = true →
    let i := readZ x.b x.lit s
    let b := Map.get {} (s.cl (cluOf s.cur)).bars i
    (s.me.bar = none → i ≤ 15 → 0 < b.count → s.loading s.cur = false → storesOut s s.cur = false →
      ∃ t, exec (.bar g x) s = .next t ∧ t.me.r = s.me.r ∧ t.mem = s.mem ∧
        let b' := Map.get {} (t.cl (cluOf s.cur)).bars i
        b'.count = b.count ∧
        (b.arr + 1 < b.count → b'.arr = b.arr + 1 ∧ b'.epi = b.epi ∧ t.me.pc = s.me.pc ∧ t.me.bar = some (i, b.epi.toNat)) ∧
        (b.count ≤ b.arr + 1 → b'.arr = 0 ∧ b'.epi = b.epi + 1 ∧ t.me.bar = none ∧
          t.me.pc = s.me.pc + BitVec.ofNat 64 (memLen x))) ∧
    (∀ j e, s.me.bar = some (j, e) → (Map.get {} (s.cl (cluOf s.cur)).bars j).epi.toNat ≠ e →
      exec (.bar g x) s = .next (s.modMe fun t => { t with bar := none, pc := t.pc + BitVec.ofNat 64 (memLen x) })) ∧
    (s.me.bar = none → (15 < i ∨ b.count = 0) → s.loading s.cur = false → s.owed s.cur s.nextId = false →
      exec (.bar g x) s = .next (freezeAt s.cur 0x0B none (BitVec.ofNat 64 i) s))

/-- R244 to R246, R358: readings of time, launch records, barriers. -/
def Obligations.TimeRecordsAndBarriers : Prop := Claims.TimeAndRecords ∧ Claims.BarrierArrivals

/-! ### Vector instructions -/

namespace Sys2Proof.Claims

/-- The operands of lane L as integers (R159, R264), and a's under the source modifier. -/
def aL (o : Opnds) (r : Regs) (l : Nat) : Int := intOf o.ty (o.aLane r l) (4 * o.a.width)
def bL (o : Opnds) (r : Regs) (l : Nat) : Int := intOf o.ty (o.b.lane r l) (4 * o.b.width)
def cL (o : Opnds) (r : Regs) (l : Nat) : Int := intOf o.ty (readLane r.vec l o.c) (4 * o.c.width)
/-- The width of a three-source vector instruction. -/
def n3 (o : Opnds) : Nat := max o.n (4 * o.c.width)

/-- Both forms of a vector instruction complete when their mask selects a lane: each selected lane of d receives the low bits of
`v`, the other lanes and everything else stand, and control falls through (R150, R264, R265). -/
def VWrites (base : Guard → B3 → Instr) (ext : Guard → XA → Instr) (v : Opnds → Regs → Nat → Nat) : Prop :=
  (∀ g o s, s.me.r.lanes g ≠ 0 → exec (base g o) s =
    .next (wrote (baseLen o.lit) (fun r => r.putLanes (vwin o.d) (r.lanes g) (v (ofB3V o) r)) s)) ∧
  (∀ g x s, s.me.r.lanes g ≠ 0 → exec (ext g x) s =
    .next (wrote (extLen x.lit) (fun r => r.putLanes (rngOf x.d) (r.lanes g) (v (ofXA x) r)) s))
def VWritesU (base : Guard → BU → Instr) (ext : Guard → XA → Instr) (v : Opnds → Regs → Nat → Nat) : Prop :=
  (∀ g o s, s.me.r.lanes g ≠ 0 → exec (base g o) s =
    .next (wrote 4 (fun r => r.putLanes (vwin o.d) (r.lanes g) (v (ofBUV o) r)) s)) ∧
  (∀ g x s, s.me.r.lanes g ≠ 0 → exec (ext g x) s =
    .next (wrote (extLen x.lit) (fun r => r.putLanes (rngOf x.d) (r.lanes g) (v (ofXA x) r)) s))
def VWritesX (ext : Guard → XA → Instr) (v : Opnds → Regs → Nat → Nat) : Prop :=
  ∀ g x s, s.me.r.lanes g ≠ 0 → exec (ext g x) s =
    .next (wrote (extLen x.lit) (fun r => r.putLanes (rngOf x.d) (r.lanes g) (v (ofXA x) r)) s)

/-- A mask pair has received the conditions of the selected lanes and their complements; other lanes of both masks keep their
bits, and k7 reads ones (R157, R186, R270). -/
def wroteMasks (len p q : Nat) (sel : BitVec 8) (v : Nat → Bool) (fpctl : W64) (s t : State) : Prop :=
  t = wrote len (fun r => { r with masks := t.me.r.masks, fpctl := fpctl }) s ∧
  ∀ n l, n < 8 → l < 8 → (t.me.r.k n).getLsbD l =
    if n = 7 then true
    else if sel.getLsbD l = false then (s.me.r.k n).getLsbD l
    else if n = q then !v l else if n = p then v l else (s.me.r.k n).getLsbD l

/-- The flags that the selected lanes of a floating-point instruction raise, ORed into FPCTL after the lanes are written (R13,
R188, R263). -/
def flagsOf (sel : BitVec 8) (f : Nat → FFlags) : FFlags := (selLanes sel).foldl (fun a l => a.or (f l)) {}
/-- The registers after a floating-point instruction: the selected lanes with their patterns, and the flags raised. -/
def putF (d : Rng) (sel : BitVec 8) (f : Nat → FRes) (r : Regs) : Regs :=
  (r.putLanes d sel fun l => (f l).1).raise (flagsOf sel fun l => (f l).2)

/-- Both forms of a floating-point instruction complete when their mask selects a lane; the base form takes FP16, type
code 2 (R154, R277). -/
def FWrites (base : Guard → B3 → Instr) (ext : Guard → XA → Instr) (f : Nat → Opnds → Regs → Nat → FRes) : Prop :=
  (∀ g o s, s.me.r.lanes g ≠ 0 → exec (base g o) s =
    .next (wrote (baseLen o.lit) (fun r => putF (vwin o.d) (r.lanes g) (f 2 (ofB3V o) r) r) s)) ∧
  (∀ g x s, s.me.r.lanes g ≠ 0 → exec (ext g x) s =
    .next (wrote (extLen x.lit) (fun r => putF (rngOf x.d) (r.lanes g) (f x.ty.toNat (ofXA x) r) r) s))
def FWritesU (base : Guard → BU → Instr) (ext : Guard → XA → Instr) (f : Nat → Opnds → Regs → Nat → FRes) : Prop :=
  (∀ g o s, s.me.r.lanes g ≠ 0 → exec (base g o) s =
    .next (wrote 4 (fun r => putF (vwin o.d) (r.lanes g) (f 2 (ofBUV o) r) r) s)) ∧
  (∀ g x s, s.me.r.lanes g ≠ 0 → exec (ext g x) s =
    .next (wrote (extLen x.lit) (fun r => putF (rngOf x.d) (r.lanes g) (f x.ty.toNat (ofXA x) r) r) s))
def FWritesX (ext : Guard → XA → Instr) (f : XA → Regs → Nat → FRes) : Prop :=
  ∀ g x s, s.me.r.lanes g ≠ 0 → exec (ext g x) s =
    .next (wrote (extLen x.lit) (fun r => putF (rngOf x.d) (r.lanes g) (f x r) r) s)

/-- Sums, minima and maxima of a list of integers; of an empty list 0. -/
def listMin : List Int → Int
  | [] => 0
  | a :: l => l.foldl min a
def listMax : List Int → Int
  | [] => 0
  | a :: l => l.foldl max a

end Sys2Proof.Claims

/-- R265 to R267: the vector integer arithmetic, on each selected lane: exact on the lanes' integers, taken modulo 2^N. vmulh gives
the high half of the product, vsra rounds to nearest with ties upward, and min, max and abs follow the type's sign. -/
def Sys2Proof.Claims.VectorArithmetic : Prop :=
  VWrites .vadd .vaddExt (fun o r l => wrap o.n (aL o r l + bL o r l)) ∧
  VWrites .vsub .vsubExt (fun o r l => wrap o.n (aL o r l - bL o r l)) ∧
  VWrites .vmul .vmulExt (fun o r l => wrap o.n (aL o r l * bL o r l)) ∧
  VWrites .vmulh .vmulhExt (fun o r l => wrap o.n (Int.fdiv (aL o r l * bL o r l) (2 ^ o.n))) ∧
  VWrites .vmad .vmadExt (fun o r l => wrap (n3 o) (aL o r l * bL o r l + cL o r l)) ∧
  VWrites .vmin .vminExt (fun o r l => wrap o.n (min (aL o r l) (bL o r l))) ∧
  VWrites .vmax .vmaxExt (fun o r l => wrap o.n (max (aL o r l) (bL o r l))) ∧
  VWritesU .vabs .vabsExt (fun o r l => wrap (uWidth o) (aL o r l).natAbs) ∧
  VWritesU .vneg .vnegExt (fun o r l => wrap (uWidth o) (-(aL o r l))) ∧
  VWrites .vsra .vsraExt (fun o r l =>
    let h := o.b.lane r l
    wrap o.n (if h = 0 then aL o r l else Int.fdiv (aL o r l + 2 ^ (h - 1)) (2 ^ h)))

/-- R265, R266: vand, vor and vxor bit by bit, and vshl, vshr and vsar by the lane's count, which may pass the width. -/
def Sys2Proof.Claims.VectorLogicAndShifts : Prop :=
  let W base ext (f : Bool → Bool → Bool) := VWrites base ext fun o r l =>
    bitsOf o.n fun i => f ((wrap o.n (aL o r l)).testBit i) ((wrap o.n (bL o r l)).testBit i)
  W .vand .vandExt (fun a b => a && b) ∧ W .vor .vorExt (fun a b => a || b) ∧ W .vxor .vxorExt (fun a b => a != b) ∧
  VWrites .vshl .vshlExt (fun o r l => wrap o.n (aL o r l) * 2 ^ o.b.lane r l % 2 ^ o.n) ∧
  VWrites .vshr .vshrExt (fun o r l => wrap o.n (aL o r l) / 2 ^ o.b.lane r l) ∧
  VWrites .vsar .vsarExt (fun o r l =>
    bitsOf o.n fun i => (wrap o.n (aL o r l)).testBit (min (i + o.b.lane r l) (o.n - 1)))

/-- R265 to R267: the integer instructions of the vector file, on each selected lane. -/
def Obligations.VectorIntegerLanes : Prop := Claims.VectorArithmetic ∧ Claims.VectorLogicAndShifts

/-- R268, R269, R271 to R274: clamping; the extensions of a lane's low bits; selection by a mask; moves, the broadcast of a scalar,
extraction from two vectors at a scalar's lane, and permutation. -/
def Obligations.VectorMoves : Prop :=
  VWritesX .vclamp (fun o r l => wrap (n3 o) (min (max (aL o r l) (bL o r l)) (cL o r l))) ∧
  VWritesX .vsext (fun o r l =>
    let n := min (o.b.lane r l) (4 * o.a.width)
    bitsOf 64 fun i => n != 0 && (o.aLane r l).testBit (min i (n - 1))) ∧
  VWritesX .vzext (fun o r l => bitsOf (min (o.b.lane r l) (4 * o.a.width)) (o.aLane r l).testBit) ∧
  VWritesX .vsel (fun o r l =>
    wrap o.n (if (r.k (o.c.start % 8)).getLsbD l = true then aL o r l else bL o r l)) ∧
  VWritesU .vmov .vmovExt (fun o r l => wrap (uWidth o) (aL o r l)) ∧
  VWritesX .vbcast (fun o r _ => wrap (4 * max o.d.width o.b.width) (bInt o r)) ∧
  VWritesX .vext (fun o r l =>
    let j := readSlices r.scalar o.c % 8
    wrap o.n (if l + j < 8 then aL o r (l + j) else bL o r (l + j - 8))) ∧
  VWrites .vperm .vpermExt (fun o r l => wrap o.n (aL o r (o.b.lane r l % 8)))

/-- R270, R280: vcmp and vfcmp write the condition of each selected lane to the first mask of the pair and its complement to the
second; vfcmp raises NV where its condition signals. -/
def Obligations.VectorCompares : Prop :=
  (∀ g x s, s.me.r.lanes g ≠ 0 → ∃ t, exec (.vcmp g x) s = .next t ∧
    wroteMasks (extLen x.lit) (x.d.start.toNat % 8) (x.d.start.toNat / 8 % 8) (s.me.r.lanes g)
      (fun l =>
        let o := ofXA x
        let a := aL o s.me.r l
        let b := bL o s.me.r l
        match (x.c.bits.extractLsb' 12 4).toNat with
        | 0 => a == b
        | 1 => a != b
        | 2 => a < b
        | _ => a ≤ b) s.me.r.fpctl s t) ∧
  (∀ g x s, s.me.r.lanes g ≠ 0 → ∃ t, exec (.vfcmp g x) s = .next t ∧
    let o := ofXA x
    let m := fmtOf o.ty
    let v (l : Nat) := fcond (x.c.bits.extractLsb' 12 4).toNat (m.decode (o.aLane s.me.r l)) (m.decode (o.b.lane s.me.r l))
    wroteMasks (extLen x.lit) (x.d.start.toNat % 8) (x.d.start.toNat / 8 % 8) (s.me.r.lanes g) (fun l => (v l).1)
      (if (selLanes (s.me.r.lanes g)).any (fun l => (v l).2) = true then s.me.r.fpctl ||| 1 else s.me.r.fpctl) s t)

/-- R268, R275, R276: vsat saturates to the width of d, with OF and NX where a selected lane clamps; vdot adds the exact products of
the packed elements to the lane's accumulator, wrapping or saturating with OF and NX; vred leaves in a scalar the sum, least or
greatest of the selected lanes. That a clamp raises NX beside OF is read from Table 13-6 (log 70). -/
def Obligations.DotAndReduce : Prop :=
  FWritesX .vsat (fun x r l =>
    let o := ofXA x
    let lo : Int := if x.ty = 0 then -(2 ^ (4 * x.d.width - 1)) else 0
    let hi : Int := if x.ty = 0 then 2 ^ (4 * x.d.width - 1) - 1 else 2 ^ (4 * x.d.width) - 1
    let clamps := aL o r l < lo || hi < aL o r l
    (wrap (4 * x.d.width) (max lo (min hi (aL o r l))), { of := clamps, nx := clamps })) ∧
  FWritesX .vdot (fun x r l =>
    let o := ofXA x
    let w := if x.c.bits.getLsbD 0 = true then 4 else 8
    let el (v i : Nat) : Int := intOf o.ty (v / 2 ^ (w * i) % 2 ^ w) w
    let t : Int := intOf o.ty (readLane r.vec l o.d) 32 +
      ((List.range (32 / w)).map fun i => el (o.aLane r l) i * el (o.b.lane r l) i).sum
    let lo : Int := if o.ty = 0 then -(2 ^ 31) else 0
    let hi : Int := if o.ty = 0 then 2 ^ 31 - 1 else 2 ^ 32 - 1
    let clamps : Bool := t < lo || hi < t
    if x.c.bits.getLsbD 1 = true then (wrap 32 (max lo (min hi t)), { of := clamps, nx := clamps }) else (wrap 32 t, {})) ∧
  (∀ g x s, s.me.r.lanes g ≠ 0 → exec (.vred g x) s = .next (wrote (extLen x.lit) (fun r =>
    let o := ofXA x
    let vs := (selLanes (r.lanes g)).map (aL o r)
    r.put o.d (wrap (uWidth o) (match (x.c.bits.extractLsb' 0 2).toNat with
      | 0 => vs.sum
      | 1 => listMin vs
      | _ => listMax vs))) s))

/-- R277 to R279, R281, R282: each floating-point instruction writes, on each selected lane, the pattern and raises the flags that
its operation gives the operands as values of the type's format, under FPCTL.RM; vfabs and vfneg act on the sign bit alone and
raise nothing. -/
def Obligations.FloatLanes : Prop :=
  let B (f : Fmt → Nat → FVal → FVal → FRes) (ty : Nat) (o : Opnds) (r : Regs) (l : Nat) : FRes :=
    f (fmtOf ty) r.rm ((fmtOf ty).decode (o.aLane r l)) ((fmtOf ty).decode (o.b.lane r l))
  let U (f : Fmt → Nat → FVal → FRes) (ty : Nat) (o : Opnds) (r : Regs) (l : Nat) : FRes :=
    f (fmtOf ty) r.rm ((fmtOf ty).decode (o.aLane r l))
  FWrites .vfadd .vfaddExt (B faddV) ∧
  FWrites .vfsub .vfsubExt (B fun m rm a b => faddV m rm a (fnegV b)) ∧
  FWrites .vfmul .vfmulExt (B fmulV) ∧
  FWrites .vfma .vfmaExt (fun ty o r l => fmaV (fmtOf ty) r.rm ((fmtOf ty).decode (o.aLane r l))
    ((fmtOf ty).decode (o.b.lane r l)) ((fmtOf ty).decode (readLane r.vec l o.c))) ∧
  FWrites .vfmin .vfminExt (fun ty o r l => fminmax (fmtOf ty) false (o.aLane r l) (o.b.lane r l)) ∧
  FWrites .vfmax .vfmaxExt (fun ty o r l => fminmax (fmtOf ty) true (o.aLane r l) (o.b.lane r l)) ∧
  FWritesU .vfabs .vfabsExt (fun ty o r l => (o.aLane r l % 2 ^ ((fmtOf ty).width - 1), {})) ∧
  FWritesU .vfneg .vfnegExt (fun ty o r l =>
    (bitsOf (max (4 * o.a.width) (fmtOf ty).width)
      fun i => if i = (fmtOf ty).width - 1 then !(o.aLane r l).testBit i else (o.aLane r l).testBit i, {})) ∧
  FWritesU .vfrcp .vfrcpExt (U frcpV) ∧ FWritesU .vfrsq .vfrsqExt (U frsqV) ∧
  FWritesU .vfexp2 .vfexp2Ext (U fexp2V) ∧ FWritesU .vflog2 .vflog2Ext (U flog2V) ∧
  FWritesX .vfcvt (fun x r l =>
    let c := x.c.bits
    convertV x.ty.toNat (4 * x.a.width) (c.toNat % 16) (4 * x.d.width)
      (if c.getLsbD 4 = true then c.toNat / 32 % 4 else r.rm) (c.getLsbD 8) (c.getLsbD 7) ((ofXA x).aLane r l)) ∧
  FWritesX .vfclass (fun x r l => (2 ^ classOf (fmtOf x.ty.toNat) ((ofXA x).aLane r l), {}))

/-- R283 to R286, R336, R251: vqcb traps on a watched codebook, raises the layout mismatch trap with TVAL the codebook's offset where its
bank holds none, and else writes the code of the nearest codebook entry, by the scale that b holds in each lane, in the scalar file or as
a literal; vbscale leaves the greatest code of its lanes, not below d's, in d; vfred reduces the selected lanes along the tree, and
delivers a lone lane as it is, a NaN canonical. -/
def Obligations.QuantiseAndReduce : Prop :=
  (∀ g x s, s.me.r.lanes g ≠ 0 →
    let core := coreOf s.cur
    let cb := (s.bfmt core (x.c.bits.toNat % 16)).toNat / 2 ^ 51 * 64
    let o := ofXA x
    let p : Piece := { va := 2 ^ 60 + cb, pa := spAddr core cb, n := 32 }
    (∀ b, watched s.me .r (2 ^ 60 + cb) 32 = some b → s.loading s.cur = false → s.owed s.cur s.nextId = false →
      exec (.vqcb g x) s = .next (freezeAt s.cur 0x08 none (BitVec.ofNat 64 b) s)) ∧
    (watched s.me .r (2 ^ 60 + cb) 32 = none → (s.bfmt core (cb / 0x8000)).toNat % 256 ≠ 0x17 → s.loading s.cur = false →
      s.owed s.cur s.nextId = false →
      exec (.vqcb g x) s = .next (freezeAt s.cur 0x0E none (BitVec.ofNat 64 cb) s)) ∧
    (watched s.me .r (2 ^ 60 + cb) 32 = none → atOnce s s.cur [p] false = true →
      (s.bfmt core (cb / 0x8000)).toNat % 256 = 0x17 → Map.get? s.flips (spAddr core cb / 64) = none →
      s.poison.contains (spAddr core cb / 64) = false → (s.act s.cur).held = [] → (s.bu (bhOf s.cur)).mwatch = [] →
      (s.bu (bhOf s.cur)).migs = [] →
      let scale (r : Regs) (l : Nat) : Nat := match x.lit with
        | some w => w.toNat % 256
        | none => if x.b.file = 1 then readLane r.vec l (rngOf x.b) else readSlices r.scalar (rngOf x.b)
      ∃ t, exec (.vqcb g x) s = .next t ∧ t = s.modMe (fun th => { th with
        r := putF (rngOf x.d) (th.r.lanes g) (fun l => quantise (leNat (Memory.rds s.mem (spAddr core cb) 32))
          ((fmtOf o.ty).decode (o.aLane th.r l)) (scale th.r l)) th.r
        pc := th.pc + BitVec.ofNat 64 (extLen x.lit) }))) ∧
  (∀ g x s, s.me.r.lanes g ≠ 0 → exec (.vbscale g x) s = .next (wrote (extLen x.lit) (fun r =>
    let o := ofXA x
    let c (l : Nat) := blockCode ((fmtOf o.ty).decode (o.aLane r l))
    (r.put o.d ((selLanes (r.lanes g)).foldl (fun m l => max m (c l).1) (readSlices r.scalar o.d))).raise
      (flagsOf (r.lanes g) fun l => (c l).2)) s)) ∧
  (∀ g x s l, selLanes (s.me.r.lanes g) = [l] → exec (.vfred g x) s = .next (wrote (extLen x.lit) (fun r =>
    let m := fmtOf x.ty.toNat
    let v := (ofXA x).aLane r l
    match m.decode v with
    | .nan sig => (r.put (rngOf x.d) m.nanBits).raise { nv := sig }
    | _ => r.put (rngOf x.d) v) s)) ∧
  (∀ g x s, s.me.r.lanes g ≠ 0 → (selLanes (s.me.r.lanes g)).length ≠ 1 → ∀ v, tree (fun (a b : FRes) =>
      let m := fmtOf x.ty.toNat
      let z := match (x.c.bits.extractLsb' 0 2).toNat with
        | 0 => faddV m s.me.r.rm (m.decode a.1) (m.decode b.1)
        | 1 => fminmax m false a.1 b.1
        | _ => fminmax m true a.1 b.1
      (z.1, (a.2.or b.2).or z.2))
      ((List.range 8).map fun l => if (s.me.r.lanes g).getLsbD l = true then some ((ofXA x).aLane s.me.r l, {}) else none) = some v →
    exec (.vfred g x) s = .next (wrote (extLen x.lit) (fun r => (r.put (rngOf x.d) v.1).raise v.2) s))

/-! ### The matrix array and the copy engine -/

namespace Sys2Proof.Claims

/-- A command has been issued: it is in flight under the next number of its engine's sequence for the reactor, with its operation
and fields, its counter has gone up, and the program counter has passed it (R116, R187, R290). -/
def commanded (mat : Bool) (op : Nat) (x : XT) (s t : State) : Prop :=
  let r := (s.act s.cur).reactor
  issued (extLen x.lit) x.ctr.toNat s t ∧ t.me.r = s.me.r ∧ t.mem = s.mem ∧
  (∃ c, (s.nextId, Flight.engine s.cur r mat (if mat then (s.re r).seqMat else (s.re r).seqCopy) x.ctr.toNat s.me.gen
      (s.act s.cur).q.tag c (s.act s.cur).priv) ∈ t.flight ∧ c.op = op ∧ c.x = x) ∧
  (t.re r).seqMat = (if mat then (s.re r).seqMat + 1 else (s.re r).seqMat) ∧
  (t.re r).seqCopy = (if mat then (s.re r).seqCopy else (s.re r).seqCopy + 1)

/-- Nothing keeps a command from issuing: its guard is true, its counter has room, its reactor exists, and an event of it
has a tag. -/
def mayCommand (g : Guard) (x : XT) (s : State) : Prop :=
  s.me.r.guardTrue g = true ∧ s.me.c x.ctr.toNat < 255 ∧ s.hasRe (s.act s.cur).reactor = true ∧
  (x.ctl.getLsbD 3 = true → (s.act s.cur).q.tagm.toNat < 2 ^ 32 - 1)

/-- No mrest in flight is to change the masks that a command of the matrix array uses. -/
def masksStand (x : XT) (s : State) : Prop := x.masks = true → accBusy s s.cur (x.d.start.toNat % 4) true = false

/-- Operand b of an engine command: the low bits of a literal, by b's width, or a scalar (R160). -/
def operandB (x : XT) (s : State) : Nat := match x.lit with
  | some w => w.toNat % 2 ^ (4 * x.b.width)
  | none => (extSrc x.b none).read s.me.r

/-- The layout that gives the element size of an mtld or mst tile: of the bank of the first row read, or where no row is read of
the bank that the tile's address names (R289, Table 15-1). -/
def sizeLayout (s : State) (va pitch : Nat) (rows : List Nat) : Nat :=
  ((tilePlace s.cur va).map fun p => layoutAt s p.1 (p.2 + (rows.head?.getD 0) * pitch)).getD 0

/-- Element i of an accumulator and its poison bit. -/
def elemOf (s : State) (u n i : Nat) : Nat × Bool := (((s.th u).ac n).el i, ((s.th u).ac n).poison.getLsbD i)

end Sys2Proof.Claims

/-- R290, R299 to R301, R305, R307, R314: a command of the matrix array whose operands pass the checks at issue is put in flight; one
that may write other than scratch space of its core needs the activation committed. -/
def Sys2Proof.Claims.MatrixCommandsIssue : Prop :=
  ∀ g x s, mayCommand g x s →
    let va := addrA x s
    let vb := addrB x s
    let b := operandB x s
    let acc := s.me.ac (x.d.start.toNat % 4)
    (∃ t, exec (.mzero g x) s = .next t ∧ commanded true 0xB0 x s t) ∧
    (masksStand x s → committedAlready s → (mmaTiles x va vb s).isOk = true →
      ∃ t, exec (.mma g x) s = .next t ∧ commanded true 0xB1 x s t) ∧
    (masksStand x s → pitchOk b = true → va % 16 = 0 →
      let rows := if x.tr then acc.colsRead x.masks else acc.rowsRead x.masks
      tileFails s.cur va b (4 * typeBits x.aty.toNat (sizeLayout s va b rows) false) rows = none →
      ∃ t, exec (.mtld g x) s = .next t ∧ commanded true 0xB2 x s t) ∧
    (masksStand x s → committedAlready s → pitchOk (b % 2 ^ 32) = true → va % 16 = 0 → b / 2 ^ 51 = 0 →
      (if x.ctl.getLsbD 0 || x.ctl.getLsbD 1 then b / 2 ^ 32 % 64 = 0 ∧ b / 2 ^ 32 + 192 ≤ 0x60000 else b / 2 ^ 32 = 0) →
      tileFails s.cur va (b % 2 ^ 32)
        (4 * typeBits x.bty.toNat (sizeLayout s va (b % 2 ^ 32) (acc.rowsRead x.masks)) false) (acc.rowsRead x.masks) = none →
      ∃ t, exec (.mst g x) s = .next t ∧ commanded true 0xB3 x s t) ∧
    ((tilePlace s.cur va).isSome = true → (tilePlace s.cur vb).isSome = true → va % 16 = 0 → vb % 16 = 0 →
      ∃ t, exec (.mcb g x) s = .next t ∧ commanded true 0xB9 x s t) ∧
    (tileFails s.cur va 0 4288 [0] = none → va % 64 = 0 →
      (committedAlready s → ∃ t, exec (.msave g x) s = .next t ∧ commanded true 0xBB x s t) ∧
      ∃ t, exec (.mrest g x) s = .next t ∧ commanded true 0xBC x s t)

/-- R306, R289, R309: once no command of its accumulator is in flight, mmask writes both masks, mwr writes one element of a row block
from each lane and clears its poison, mrd reads one into each lane, and mstat reads the masks or the poison; mrd of a poisoned
element raises the poison trap with TVAL b. -/
def Obligations.AccumulatorAccess : Prop :=
  ∀ g x s, s.me.r.guardTrue g = true →
    let b := operandB x s
    let nd := x.d.start.toNat % 4
    let na := x.a.start.toNat % 4
    let el (l : Nat) : Nat := 32 * (b % 32) + 8 * (b / 32 % 4) + l
    let pc' := s.me.pc + BitVec.ofNat 64 (extLen x.lit)
    (accBusy s s.cur nd false = false →
      (∃ t, exec (.mmask g x) s = .next t ∧ t = s.modMe (fun th => { th with acc := t.me.acc, pc := pc' }) ∧
        ∀ n, n < 4 → t.me.ac n =
          if n = nd then { s.me.ac n with rows := BitVec.ofNat 32 b, cols := BitVec.ofNat 32 (b / 2 ^ 32) } else s.me.ac n) ∧
      (∃ t, exec (.mwr g x) s = .next t ∧ t = s.modMe (fun th => { th with acc := t.me.acc, pc := pc' }) ∧
        ∀ n i, n < 4 → i < 1024 → elemOf t s.cur n i =
          if n = nd ∧ el 0 ≤ i ∧ i < el 8 then (readLane s.me.r.vec (i - el 0) (rngOf x.a) % 2 ^ 32, false)
          else elemOf s s.cur n i)) ∧
    (accBusy s s.cur na false = false →
      ((∀ l, l < 8 → (elemOf s s.cur na (el l)).2 = false) →
        exec (.mrd g x) s = .next (wrote (extLen x.lit)
          (fun r => r.putLanes (rngOf x.d) 0xFF fun l => (elemOf s s.cur na (el l)).1) s)) ∧
      ((∃ l, l < 8 ∧ (elemOf s s.cur na (el l)).2 = true) → s.loading s.cur = false → s.owed s.cur s.nextId = false →
        exec (.mrd g x) s = .next (freezeAt s.cur 0x07 none (BitVec.ofNat 64 b) s)) ∧
      exec (.mstat g x) s = .next (wrote (extLen x.lit) (fun r => r.put (rngOf x.d)
        (if b = 0 then (s.me.ac na).rows.toNat + 2 ^ 32 * (s.me.ac na).cols.toNat
         else if b = 1 then ((List.range 1024).filter fun i => (elemOf s s.cur na i).2).length
         else if b ≤ 33 then bitsOf 32 fun c => (elemOf s s.cur na (32 * (b - 2) + c)).2
         else 0)) s))

/-- R308, R310: cp whose sides pass the checks at issue puts its copy in flight, and cpm its copy and the mma that waits for it, under
one counter; a copy that may write other than scratch space of its core needs the activation committed. -/
def Sys2Proof.Claims.CopiesIssue : Prop :=
  ∀ g x s, mayCommand g x s → committedAlready s →
    let r := (s.act s.cur).reactor
    (∀ c, let dva := readSlices s.me.r.scalar (rngOf x.d)
      let n := operandB x s
      copyCmd s 0xB7 x dva (addrA x s) n none = .ok c → n ≤ 16777216 →
      (x.mcA = true ∨ x.mcB = true → dva / 2 ^ 60 = 1 ∨ dva / 2 ^ 60 = 2) →
      ∃ t, exec (.cp g x) s = .next t ∧ commanded false 0xB7 x s t) ∧
    (∀ c q, let dva := readSlices s.me.r.scalar ⟨x.a.start.toNat + 16, 16⟩
      let pitch := rowPitch x.bty.toNat (xtK x)
      masksStand x s → mmaTiles x (addrB x s) dva s = .ok q → tileFails s.cur dva 0 (32 * pitch) [0] = none →
      copyCmd s 0xB8 x dva (addrA x s) (32 * (pitch * 8 / typeBits x.bty.toNat 0 true))
        (some (typeLay x.bty.toNat)) = .ok c →
      ∃ t, exec (.cpm g x) s = .next t ∧ issued (extLen x.lit) x.ctr.toNat s t ∧ t.me.r = s.me.r ∧ t.mem = s.mem ∧
        (t.re r).seqCopy = (s.re r).seqCopy + 1 ∧ (t.re r).seqMat = (s.re r).seqMat + 1 ∧
        ∃ c1 c2, (s.nextId, Flight.engine s.cur r false (s.re r).seqCopy x.ctr.toNat s.me.gen (s.act s.cur).q.tag c1
            (s.act s.cur).priv) ∈ t.flight ∧
          (s.nextId + 1, Flight.engine s.cur r true (s.re r).seqMat x.ctr.toNat s.me.gen (s.act s.cur).q.tag c2
            (s.act s.cur).priv) ∈ t.flight ∧
          c1.op = 0xB8 ∧ c1.src = c.src ∧ c1.dst = c.dst ∧ c1.dep = none ∧
          c2.op = 0xB8 ∧ c2.ta = q.1 ∧ c2.tb = q.2 ∧ c2.dep = some s.nextId)

/-- R290 to R310: commands of the matrix array and of the copy engine are put in flight. -/
def Obligations.EngineCommandsIssue : Prop := Claims.MatrixCommandsIssue ∧ Claims.CopiesIssue

/-! ### Traps and the system instructions -/

namespace Sys2Proof.Claims

/-- Nothing that a precise trap of the issuing thread set waits for is in flight (R185). -/
def settled (s : State) : Prop := s.loading s.cur = false ∧ s.owed s.cur s.nextId = false

/-- Thread set `u` frozen at its program counter with the trap registers written: TCAUSE the code, TVAL, TEPC, and TSTAT with REPST,
PRIV and RESTARTABLE (Tables 19-1, 19-2). -/
def frozenAs (u code : Nat) (val : W64) (s : State) : Thread :=
  { s.th u with
    mode := .frozen, tcause := BitVec.ofNat 64 code, tval := val, tepc := (s.th u).pc
    tstat := BitVec.ofNat 64 ((s.th u).repst.toNat + 2 ^ 48 * (s.act u).priv.toNat + 2 ^ 49 * (s.act u).restartable.toNat)
    hist := 0, retried := false, tfroze := s.ns (bhOf u) }

/-- Thread set `u` has taken a trap that goes to a buddy, and nothing else has changed but its cluster's trap queue, where it is the
youngest entry (R362, R364, R367). -/
def trapped (u code : Nat) (val : W64) (s t : State) : Prop :=
  t = { s with thr := t.thr, clu := t.clu } ∧ t.th u = frozenAs u code val s ∧ (∀ v, v ≠ u → t.th v = s.th v) ∧
  (t.cl (cluOf u)).traps = (s.cl (cluOf u)).traps ++ [{ ts := u, order := (s.cl (cluOf u)).nextOrder }] ∧
  ∀ c, c ≠ cluOf u → t.cl c = s.cl c

/-- An instruction that gives a status leaves it in d, falls through, and changes nothing else. -/
def gaveStatus (x : XA) (v : Nat) (s : State) : State := wrote (extLen x.lit) (fun r => r.put (rngOf x.d) v) s

/-- The issuing thread set has the status in d and has gone on; the rest of it stands. -/
def meGave (x : XA) (v : Nat) (s t : State) : Prop := t.cur = s.cur ∧ t.me = (gaveStatus x v s).me

/-- Operand a of a system instruction. -/
def opA (x : XA) (s : State) : Nat := readSlices s.me.r.scalar (rngOf x.a)

/-- A privileged instruction goes ahead: a true guard, a privileged activation past its commit point, no load in flight. -/
def mayAct (g : Guard) (s : State) : Prop :=
  s.me.r.guardTrue g = true ∧ (s.act s.cur).priv = true ∧ committedAlready s ∧ s.loading s.cur = false

end Sys2Proof.Claims

/-- R330, R323, R362, R364, R367: trap freezes its thread set with code 0x0F and its operand in TVAL; a privileged instruction in an
unprivileged activation freezes it with the privilege trap, code 0x04, and word 0 in TVAL. The entry is queued for the buddy, and
nothing else changes. -/
def Obligations.TrapsFreeze : Prop :=
  ∀ g x s, s.me.r.guardTrue g = true → settled s →
    (∃ t, exec (.trap g x) s = .next t ∧ trapped s.cur 0x0F (BitVec.ofNat 64 (readZ x.b x.lit s)) s t) ∧
    ((s.act s.cur).priv = false →
      ∀ i ∈ [Instr.freeze g x, .thaw g x, .migrate g x, .seal g x, .wpset g x, .wpclr g x, .pwrite g x],
        ∃ t, exec i s = .next t ∧ trapped s.cur 0x04 (((s.codeWord s.cur s.me.pc).getD 0).setWidth 64) s t)

/-- R324, R325, R188: rdsys writes to d the register that b numbers in the issuer's view, 0 where that view hides it or nothing is
assigned; wrsys writes FPCTL, the configuration of a programmable counter, clears SSTAT.VE, and on a write that the view rules ignore sets
SSTAT.VE with its cause. The other writes of wrsys are the steps of the table that it names. -/
def Obligations.SystemRegisters : Prop :=
  ∀ g x s, s.me.r.guardTrue g = true → s.loading s.cur = false →
    let n := readZ x.b x.lit s
    let v := BitVec.ofNat 64 (opA x s)
    let a := s.act s.cur
    let shown (w : W64) : W64 := if a.priv = true then w else 0
    let Reads (w : W64) : Prop := exec (.rdsys g x) s = .next (gaveStatus x w.toNat s)
    let Writes (f : Thread → Thread) : Prop :=
      exec (.wrsys g x) s = .next (s.modMe fun t => { f t with pc := t.pc + BitVec.ofNat 64 (extLen x.lit) })
    let ignored (c : Nat) (t : Thread) : Thread := { t with ve := true, vec := BitVec.ofNat 4 c }
    (n = 0 → Reads s.me.r.fpctl ∧
      (v &&& ~~~0x31F#64 = 0 → Writes fun t => { t with r := { t.r with fpctl := v } }) ∧
      (v &&& ~~~0x31F#64 ≠ 0 → Writes (ignored 2))) ∧
    (n = 1 → Reads (s.me.repst.setWidth 64) ∧ Writes (ignored 1)) ∧
    (n = 2 → Reads (BitVec.ofNat 64 (a.priv.toNat + (if s.me.ve = true then 2 + 16 * s.me.vec.toNat else 0))) ∧
      Writes fun t => if v.getLsbD 1 = true then { t with ve := false, vec := 0 } else t) ∧
    (n = 3 → Reads (BitVec.ofNat 64 s.cur) ∧ Writes (ignored 1)) ∧
    (n = 4 → Reads s.me.arp ∧ Writes (ignored 1)) ∧
    (n = 8 → Reads (shown s.me.tcause)) ∧ (n = 9 → Reads (shown s.me.tval)) ∧
    (n = 0xA → Reads (shown s.me.tepc)) ∧ (n = 0xB → Reads (shown s.me.tstat)) ∧
    (∀ i, i < 16 → n = 0x10 + i → Reads (s.bfmt (coreOf s.cur) i) ∧
      (committedAlready s → ∀ t, exec (.bfmtWrite (BitVec.ofNat 4 i) v) s = .next t →
        exec (.wrsys g x) s = .next (wrote (extLen x.lit) id t))) ∧
    (∀ i, i < 20 → n = 0x100 + i → Reads (shown ((a.extents.getD (i / 2) 0).extractLsb' (64 * (i % 2)) 64))) ∧
    (∀ i, i < 32 → n = 0x200 + i → Reads (shown
      (((((s.co (coreOf s.cur)).late.find? fun (e : Nat × W128) => e.1 == i / 2).map Prod.snd).getD 0).extractLsb' (64 * (i % 2)) 64))) ∧
    (∀ i, i < 512 → n = 0x400 + i → Reads (shown (a.frags.getD i 0))) ∧
    (∀ i, i < 4 → n = 0x30 + i →
      let c := Map.get {} (s.co (coreOf s.cur)).cfg i
      let w := opA x s
      let ok : Prop := (w % 256 ≤ 0xB ∨ (0x10 ≤ w % 256 ∧ w % 256 ≤ 0x17)) ∧ (w / 256 % 16 ≠ 0 ∨ w % 256 = 0) ∧
        w / 2 ^ 12 % 2 ^ 12 = 0 ∧ w / 2 ^ 32 % 2 ^ 32 = 0
      Reads (BitVec.ofNat 64 (c.evt.toNat + 2 ^ 8 * c.tsm.toNat + 2 ^ 24 * c.oevt.toNat)) ∧
      (ok → exec (.wrsys g x) s = .next (wrote (extLen x.lit) id (s.modCo (coreOf s.cur) fun k => { k with
        cfg := Map.set k.cfg i { c with evt := BitVec.ofNat 8 w, tsm := BitVec.ofNat 4 (w / 256) } }))) ∧
      (¬ ok → Writes (ignored 2))) ∧
    ((8 ≤ n ∧ n ≤ 0xB) ∨ (0x100 ≤ n ∧ n ≤ 0x113) ∨ (0x200 ≤ n ∧ n ≤ 0x21F) ∨ (0x400 ≤ n ∧ n ≤ 0x5FF) → Writes (ignored 1)) ∧
    (sysAssigned n = false → Reads 0 ∧ Writes (ignored 3)) ∧
    (∀ i ∈ [(0x20, Instr.pgans v), (0x21, .pginv v), (0x22, .sysregWrite 0x22 v)], n = i.1 → Reads 0 ∧
      (committedAlready s → ∀ t, exec i.2 s = .next t → exec (.wrsys g x) s = .next (wrote (extLen x.lit) id t)))

/-- R333, R334, R405: rdctr reads a counter with its overflow bit, counter 4 whole, and 0 with a view error where none is assigned;
wrctr writes a counter and its overflow bit, counter 4 in a privileged activation only; ctrcfg sets the event and the thread-set
mask of a programmable counter. (Of rdctr on a counter that its own retirement does not count.) -/
def Obligations.Counters : Prop :=
  ∀ g x s, s.me.r.guardTrue g = true → s.loading s.cur = false →
    let n := readZ x.b x.lit s
    let v := opA x s
    let k := s.co (coreOf s.cur)
    let c := Map.get {} k.ctrs n
    let go (t : State) : State := wrote (extLen x.lit) id t
    let veWith (c : Nat) : State := s.modMe fun t => { t with ve := true, vec := BitVec.ofNat 4 c }
    let set (c : Ctr) : State := s.modCo (coreOf s.cur) fun k => { k with ctrs := Map.set k.ctrs n c }
    let okCfg : Prop := (v % 256 ≤ 0xB ∨ (0x10 ≤ v % 256 ∧ v % 256 ≤ 0x17)) ∧ (v / 256 % 16 ≠ 0 ∨ v % 256 = 0) ∧
      v / 2 ^ 12 % 2 ^ 12 = 0 ∧ v / 2 ^ 32 % 2 ^ 32 = 0
    ((n < 4 ∧ (Map.get {} k.cfg n).evt ≠ 1) ∨ (8 ≤ n ∧ n < 16) →
      exec (.rdctr g x) s = .next (gaveStatus x (c.count.toNat % 2 ^ 48 + 2 ^ 63 * c.ovf.toNat) s)) ∧
    (n = 4 → exec (.rdctr g x) s = .next (gaveStatus x c.count.toNat s)) ∧
    ((n < 4 ∨ (8 ≤ n ∧ n < 16)) →
      exec (.wrctr g x) s = .next (go (set { count := BitVec.ofNat 64 (v % 2 ^ 48), ovf := v.testBit 63 }))) ∧
    (n = 4 → (s.act s.cur).priv = true → exec (.wrctr g x) s = .next (go (set { count := BitVec.ofNat 64 v }))) ∧
    (n = 4 → (s.act s.cur).priv = false → exec (.wrctr g x) s = .next (go (veWith 1))) ∧
    ((4 < n ∧ n < 8) ∨ 16 ≤ n → exec (.rdctr g x) s = .next (gaveStatus x 0 (veWith 3)) ∧
      exec (.wrctr g x) s = .next (go (veWith 3))) ∧
    (n < 4 → okCfg → exec (.ctrcfg g x) s = .next (go (s.modCo (coreOf s.cur) fun k => { k with
      cfg := Map.set k.cfg n { Map.get {} k.cfg n with evt := BitVec.ofNat 8 v, tsm := BitVec.ofNat 4 (v / 256) } }))) ∧
    (n < 4 → ¬ okCfg → exec (.ctrcfg g x) s = .next (go (veWith 2))) ∧
    (4 ≤ n → exec (.ctrcfg g x) s = .next (go (veWith 3)))

/-- R328, R329, R359: freeze freezes another running thread set of the cluster that has no load and no register result to come, with
code 0x10 and the issuer in TVAL, and thaw resumes a frozen one at TEPC, past the instruction there, or with its activation
cancelled; each gives its status in d, and a status that refuses changes nothing else. An arrival at a barrier that a skip moves past
stands. That a freeze of a running thread set takes effect at once is inferred (log 25). One that came after another of the same
thread set, not served yet, waits for its turn. -/
def Obligations.FreezeAndThaw : Prop :=
  ∀ g x s, mayAct g s →
    let a := opA x s
    let b := readZ x.b x.lit s
    let u := cluOf s.cur * 1024 + a % 256 * 4 + a / 256 % 4
    let Freezes (st : Nat) : Prop := exec (.freeze g x) s = .next (gaveStatus x st s)
    let Thaws (st : Nat) : Prop := exec (.thaw g x) s = .next (gaveStatus x st s)
    (1024 ≤ a → Freezes 4 ∧ Thaws 3) ∧
    (a < 1024 → u = s.cur → Freezes 1) ∧
    (a < 1024 → u ≠ s.cur → (∃ e ∈ s.flight, e.1 < s.nextId ∧ ∃ v d w, e.2 = .freeze v u d w ∧ v ≠ s.cur) → myTurn s u = none →
      ∀ i ∈ [Instr.freeze g x, .thaw g x], ∃ t, exec i s = .next t ∧ t.me = s.me ∧ t.th u = s.th u ∧ t.mem = s.mem) ∧
    (requestBefore s s.cur u s.nextId = false → myTurn s u = none →
    (a < 1024 → u ≠ s.cur → (s.th u).mode = .frozen → Freezes 2) ∧
    (a < 1024 → u ≠ s.cur → (s.th u).mode = .free → Freezes 3) ∧
    (a < 1024 → u ≠ s.cur → (s.th u).mode = .run → s.loading u = false → s.owed u s.nextId = false → ∃ t,
      exec (.freeze g x) s = .next t ∧
      meGave x 0 s t ∧ t.th u = frozenAs u 0x10 (BitVec.ofNat 64 s.cur) s ∧ t.mem = s.mem ∧
      ∀ v, v ≠ u → v ≠ s.cur → t.th v = s.th v) ∧
    (a < 1024 → (s.th u).mode ≠ .frozen → Thaws 1) ∧
    (a < 1024 → u ≠ s.cur → (s.th u).mode = .frozen →
      (2 < b → Thaws 2) ∧
      (b = 0 → ∃ t, exec (.thaw g x) s = .next t ∧ meGave x 0 s t ∧ t.th u = { s.th u with mode := .run } ∧
        (∀ e ∈ (t.cl (cluOf u)).traps, e.ts ≠ u) ∧ ∀ v, v ≠ u → v ≠ s.cur → t.th v = s.th v) ∧
      (b = 1 → ∀ w, s.codeWord u (s.th u).pc = some w → (s.th u).repAct = false → ∃ t, exec (.thaw g x) s = .next t ∧
        meGave x 0 s t ∧ t.th u = { s.th u with mode := .run, bar := none, left := (s.th u).bar.toList ++ (s.th u).left,
                                                pc := (s.th u).pc + BitVec.ofNat 64 (lengthBytes w) }) ∧
      (b = 2 → (s.act u).kind ≠ .trap → ∃ t, exec (.thaw g x) s = .next t ∧ meGave x 0 s t ∧ (t.th u).mode = .free ∧
        (t.th u).act = none)))

/-- R331, R332, R372: migrate gives the status that refuses it, or stops the reactor, puts its move in flight and stalls the issuer
with d still to be written when the move ends; seal seals a core of the partition, or unseals one that holds no reactor, with its
status in d. Which status prevails where several apply is the model's choice (logs 26, 27). -/
def Obligations.MigrateAndSeal : Prop :=
  ∀ g x s, mayAct g s →
    let a := opA x s
    let b := readZ x.b x.lit s
    let r := reacKey (cluOf s.cur) (a % 65536)
    let mine := s.partOf? (bhOf s.cur)
    let Moves (st : Nat) : Prop := exec (.migrate g x) s = .next (gaveStatus x st s)
    let Seals (st : Nat) : Prop := exec (.seal g x) s = .next (gaveStatus x st s)
    let inPart (u : Nat) : Prop := unitOk u = true ∧ s.partOf? (bhOf u) = mine ∧ mine.isSome = true
    (65536 ≤ a → Moves 6) ∧ (a < 65536 → s.hasRe r = false → Moves 1) ∧
    (a < 65536 → s.hasRe r = true →
      ((s.act s.cur).reactor = r → Moves 5) ∧
      ((s.act s.cur).reactor ≠ r →
        (¬ (b % 4 = 0 ∧ inPart b) → Moves 2) ∧
        (b % 4 = 0 → inPart b →
          ((s.re r).st = .move → Moves 4) ∧
          ((s.re r).st ≠ .move → hasRoom s (s.re r) (coreOf b) = false → Moves 3) ∧
          ((s.re r).st ≠ .move → hasRoom s (s.re r) (coreOf b) = true → (s.re r).runTs ≠ some s.cur →
            ∃ t id, exec (.migrate g x) s = .next t ∧ t.cur = s.cur ∧ (t.re r).st = .move ∧
              (id, Flight.move r (coreOf b) s.cur (x.d.start.toNat, x.d.width)) ∈ t.flight ∧
              t.me = { (wrote (extLen x.lit) (fun r => r) s).me with mode := .stalled id })))) ∧
    (1 < b ∨ a % 4 ≠ 0 ∨ 2 ^ 27 ≤ a → Seals 4) ∧
    (b ≤ 1 → a % 4 = 0 → a < 2 ^ 27 →
      (¬ inPart a → Seals 1) ∧
      (inPart a → coreOf a = coreOf s.cur → Seals 2) ∧
      (inPart a → coreOf a ≠ coreOf s.cur →
        (b = 0 → ∃ t, exec (.seal g x) s = .next t ∧ meGave x 0 s t ∧ (t.co (coreOf a)).isSealed = true) ∧
        (b = 1 → (s.reac.any fun e => e.2.core == coreOf a) = true → Seals 3) ∧
        (b = 1 → (s.reac.any fun e => e.2.core == coreOf a) = false →
          exec (.seal g x) s = .next (gaveStatus x 0 (s.modCo (coreOf a) fun k => { k with isSealed := false })))))

/-- R335 to R339: wpset puts a watchpoint of a thread set, or of the bulkhead's memory side, into the lowest free slot, and wpclr clears
one, each with the slot and a status in d; sigctl sets the checking mode of the issuer's reactor and gives the old one; pwrite of an own
scratchpad range that nothing watches poisons every sector that the range touches, and changes no byte. Which ranges a memory-side
watchpoint may take is inferred (log 28). -/
def Obligations.WatchSignAndPoison : Prop :=
  ∀ g x s, s.me.r.guardTrue g = true → s.loading s.cur = false →
    let a := opA x s
    let b := readZ x.b x.lit s
    let bh := bhOf s.cur
    let re := (s.act s.cur).reactor
    let l := b / 2 ^ 13 % 32
    let lowest (used : List Nat) (n i : Nat) : Prop := i < n ∧ i ∉ used ∧ ∀ j, j < i → j ∈ used
    (7 < b ∨ b % 4 = 3 → exec (.sigctl g x) s = .next (gaveStatus x 0xF s)) ∧
    (b ≤ 7 → b % 4 ≠ 3 → s.hasRe re = true → ∃ t, exec (.sigctl g x) s = .next t ∧
      meGave x (s.re re).sigMode.toNat s t ∧ (t.re re).sigMode = BitVec.ofNat 2 b ∧
      (4 ≤ b → ∀ e ∈ (t.pt (s.partOf bh)).sigs, e.loaded = false) ∧ t.mem = s.mem) ∧
    ((s.act s.cur).priv = true → committedAlready s →
      (b / 2 ^ 34 ≠ 0 ∨ b / 2 ^ 11 % 4 = 0 ∨ (if b.testBit 10 then 30 else 16) < l ∨ a % 2 ^ l ≠ 0 →
        exec (.wpset g x) s = .next (gaveStatus x 0x300 s)) ∧
      (b / 2 ^ 34 = 0 → b / 2 ^ 11 % 4 ≠ 0 → l ≤ (if b.testBit 10 then 30 else 16) → a % 2 ^ l = 0 →
        (b.testBit 10 = false →
          let u := cluOf s.cur * 1024 + b % 256 * 4 + b / 256 % 4
          let used := (s.th u).watch.map (·.1)
          (∀ i, lowest used 4 i → exec (.wpset g x) s = .next (gaveStatus x i (s.modTh u fun t => { t with watch := t.watch ++
            [(i, { addr := a, len := 2 ^ l, wr := b.testBit 11, rd := b.testBit 12 })] }))) ∧
          ((∀ i, i < 4 → i ∈ used) → exec (.wpset g x) s = .next (gaveStatus x 0x100 s))) ∧
        (b.testBit 10 = true →
          let used := (s.bu bh).mwatch.map (·.1)
          -- the walks that translate the range may hit other watchpoints, and cache what they read
          let s' := watchReads s a (2 ^ l)
          (watchPa s a (2 ^ l) = none → exec (.wpset g x) s = .next (gaveStatus x 0x200 s')) ∧
          (∀ pa, watchPa s a (2 ^ l) = some pa →
            (∀ i, lowest used 64 i → exec (.wpset g x) s = .next (gaveStatus x i (s'.modBu bh fun k => { k with mwatch := k.mwatch ++
              [(i, { pa := pa, len := 2 ^ l, wr := b.testBit 11, rd := b.testBit 12,
                     owner := reacKey (cluOf s.cur) (b / 2 ^ 18 % 65536) })] }))) ∧
            ((∀ i, i < 64 → i ∈ used) → exec (.wpset g x) s = .next (gaveStatus x 0x100 s'))))) ∧
      (b / 2 ^ 19 ≠ 0 → exec (.wpclr g x) s = .next (gaveStatus x (b % 256 + 0x300) s)) ∧
      (b / 2 ^ 19 = 0 →
        (b.testBit 18 = false →
          let u := cluOf s.cur * 1024 + b / 2 ^ 10 % 256 * 4 + b / 256 % 4
          (b % 256 ∈ (s.th u).watch.map (·.1) → exec (.wpclr g x) s = .next (gaveStatus x (b % 256)
            (s.modTh u fun t => { t with watch := t.watch.filter fun (e : Nat × Watch) => e.1 != b % 256 }))) ∧
          (b % 256 ∉ (s.th u).watch.map (·.1) → exec (.wpclr g x) s = .next (gaveStatus x (b % 256 + 0x100) s))) ∧
        (b.testBit 18 = true →
          (b % 256 ∈ (s.bu bh).mwatch.map (·.1) → exec (.wpclr g x) s = .next (gaveStatus x (b % 256)
            (s.modBu bh fun k => { k with mwatch := k.mwatch.filter fun (e : Nat × MWatch) => e.1 != b % 256 }))) ∧
          (b % 256 ∉ (s.bu bh).mwatch.map (·.1) → exec (.wpclr g x) s = .next (gaveStatus x (b % 256 + 0x100) s)))) ∧
      (b = 0 → exec (.pwrite g x) s = .next (wrote (extLen x.lit) id s)) ∧
      (∀ off, place s.cur a (min b 16777216) = some (.sp (coreOf s.cur) off) → 0 < b → allAcked s s.cur = true →
        (s.bu bh).migs = [] → (s.bu bh).mwatch = [] →
        let pa := spAddr (coreOf s.cur) off
        ∃ t, exec (.pwrite g x) s = .next t ∧ t.me.pc = s.me.pc + BitVec.ofNat 64 (extLen x.lit) ∧ t.me.r = s.me.r ∧
          t.mem = s.mem ∧ ∀ k, pa / 64 ≤ k → k ≤ (pa + min b 16777216 - 1) / 64 → t.poison.contains k = true))

/-! ### The steps of the table that no instruction word names: system registers and frames -/

namespace Sys2Proof.Claims

/-- The issuing thread set has a view error of this cause, and nothing else has changed (R325). -/
def viewErr (c : Nat) (s : State) : State := s.modMe fun t => { t with ve := true, vec := BitVec.ofNat 4 c }

/-- The issuer may write a bank's format: it is privileged, or every byte of the bank lies in a named region of its reactor
(R46). -/
def ownsBank (s : State) (n : Nat) : Prop :=
  (s.act s.cur).priv = true ∨ ∀ o, 0x8000 * n ≤ o → o < 0x8000 * (n + 1) →
    ∃ g ∈ (s.re (s.act s.cur).reactor).regions, g.2.1 ≤ o ∧ o < g.2.1 + g.2.2

/-- Frame k of a page that begins at pa: its key in its bulkhead, and where its attribute record lies (R445). -/
def frameKey (pa k : Nat) : Nat := pa % 2 ^ 36 / 65536 + k
def recordAt (s : State) (pa k : Nat) : Nat := hbmAddr (bhOfPa pa) ((s.bu (bhOfPa pa)).attrBase.toNat % 2 ^ 36 + 2 * frameKey pa k)

/-- The mark of frame k of a page (R75, R79). -/
def markOf (s : State) (pa k : Nat) : Option FrameSt := Map.get? (s.bu (bhOfPa pa)).frames (frameKey pa k)

/-- The marks of a page's frames are `m`, every other mark and all of memory stand. -/
def marked (pa n : Nat) (m : Option FrameSt) (s t : State) : Prop :=
  (∀ k, k < n / 65536 → markOf t pa k = m) ∧ t.mem = s.mem ∧ t.thr = s.thr ∧
  (∀ b i, b ≠ bhOfPa pa ∨ i < frameKey pa 0 ∨ frameKey pa (n / 65536) ≤ i → Map.get? (t.bu b).frames i = Map.get? (s.bu b).frames i)

end Sys2Proof.Claims

/-- R46, R47, R326: a write of BFMTn by a thread set that does not own the bank, or of an ill-formed value, is ignored with a view
error of cause 1 or 2; a write that keeps LAYOUT, SWZ and TM takes effect at once; any other waits, the thread set stalled, until
the bank has been rewritten, and then the register holds the value and the thread set goes on. -/
def Obligations.BankFormatWrites : Prop :=
  (∀ (n : BitVec 4) v s, let c := coreOf s.cur
    (12 ≤ n.toNat ∨ ¬ ownsBank s n.toNat → exec (.bfmtWrite n v) s = .next (viewErr 1 s)) ∧
    (n.toNat < 12 → (s.re (s.act s.cur).reactor).regions.length ≤ 8 → ownsBank s n.toNat →
      (bfmtOk v = false → exec (.bfmtWrite n v) s = .next (viewErr 2 s)) ∧
      (bfmtOk v = true → (s.bfmt c n.toNat).extractLsb' 0 11 = v.extractLsb' 0 11 →
        ∃ t, exec (.bfmtWrite n v) s = .next t ∧ t = { s with core := t.core } ∧ t.bfmt c n.toNat = v ∧
          ∀ k i, k ≠ c ∨ i ≠ n.toNat → t.bfmt k i = s.bfmt k i) ∧
      (bfmtOk v = true → (s.bfmt c n.toNat).extractLsb' 0 11 ≠ v.extractLsb' 0 11 →
        ∃ t, exec (.bfmtWrite n v) s = .next t ∧ (n.toNat, v, s.cur, s.nextId) ∈ (t.co c).rewriting ∧
          t.me = { s.me with mode := .stalled s.nextId } ∧ (∀ k i, t.bfmt k i = s.bfmt k i) ∧ t.mem = s.mem))) ∧
  (∀ core b v u id s rest, (s.co core).rewriting = (b, v, u, id) :: rest → b < 12 → touching s core b id = false →
    ∃ t, exec (.bankRewrite core b) s = .next t ∧ t.bfmt core b = v ∧ (t.co core).rewriting = rest ∧
      ((s.th u).mode = .stalled id → t.th u = { s.th u with mode := .run }) ∧ ∀ w, w ≠ u → t.th w = s.th w)

/-- R78, R63, R324, R325: a write of PGANS puts the answer on its way and stalls the issuer; one of PGINV makes every sequencer of the
partition drop the entries that it names and translate anew what it has formed and not dispatched; each is ignored with a view error in an
unprivileged activation, or where a reserved bit is set. SYSREG_WRITE writes FPCTL, clears SSTAT.VE, and ignores a write of a read-only
register or of one that is not assigned. -/
def Obligations.SystemRegisterSteps : Prop :=
  (∀ v s, (s.act s.cur).priv = false → exec (.pgans v) s = .next (viewErr 1 s) ∧ exec (.pginv v) s = .next (viewErr 1 s)) ∧
  (∀ v s, (s.act s.cur).priv = true →
    (v.extractLsb' 36 28 ≠ 0 → exec (.pgans v) s = .next (viewErr 2 s)) ∧
    (v.extractLsb' 36 28 = 0 → exec (.pgans v) s = .next ((s.modMe fun t => { t with mode := .stalled s.nextId }).emit
      (.answer (v.toNat % 2 ^ 27) (v.toNat / 2 ^ 27 % 256) (v.getLsbD 35) s.cur))) ∧
    (v.extractLsb' 1 15 ≠ 0 → exec (.pginv v) s = .next (viewErr 2 s)) ∧
    (v.extractLsb' 1 15 = 0 → ∃ t, exec (.pginv v) s = .next t ∧ t.thr = s.thr ∧ t.mem = s.mem ∧
      (∀ r p, (s.re r).pend = some p → s.partOf? (bhOfReac r) = s.partOf? (bhOf s.cur) →
        (s.re r).st = .xlate ∨ (s.re r).st = .ready →
        (t.re r).st = .xlate ∧ (∃ id, (id, Flight.walk (.dispatch r) false) ∈ t.flight) ∧
          ∃ p', (t.re r).pend = some p' ∧ p'.act.extents = [] ∧ p'.act.frags = [] ∧ p'.act.pins = []) ∧
      (∀ r, s.partOf? (bhOfReac r) ≠ s.partOf? (bhOf s.cur) → t.re r = s.re r) ∧
      ∀ c, t.cl c = { s.cl c with tlb := (t.cl c).tlb } ∧ ∀ e, e ∈ (t.cl c).tlb ↔ e ∈ (s.cl c).tlb ∧
        (s.partOf? (bhOfClu c) = s.partOf? (bhOf s.cur) →
          v.getLsbD 0 = false ∧ v.toNat / 65536 * 65536 / lvlSize e.2.1 ≠ e.1))) ∧
  (∀ (n v : W64) s,
    (n = 0 → v &&& ~~~0x31F#64 = 0 → exec (.sysregWrite n v) s = .next (s.modMe fun t => { t with r := { t.r with fpctl := v } })) ∧
    (n = 0 → v &&& ~~~0x31F#64 ≠ 0 → exec (.sysregWrite n v) s = .next (viewErr 2 s)) ∧
    (n = 2 → v.getLsbD 1 = true → exec (.sysregWrite n v) s = .next (s.modMe fun t => { t with ve := false, vec := 0 })) ∧
    (n = 1 ∨ n = 3 ∨ n = 4 → exec (.sysregWrite n v) s = .next (viewErr 1 s)) ∧
    (sysAssigned n.toNat = false → exec (.sysregWrite n v) s = .next (viewErr 3 s)))

/-- R75, R76, R79: the four operations of FRMCTL on a page that the gate admits. Attributes writes every frame's record, and every byte of
the page as zero when asked, while else the bytes stand; Withdraw and Fill change the marks of all its frames, Restore clears them and
lets the bounce buffer's lines of the page go; in an unprivileged activation, or on a page that does not meet the operation's condition,
the write is ignored with a view error of cause 1 or 2. That a frame whose bulkhead is a dead member counts as one that cannot be reached
is inferred (log 72). -/
def Obligations.FrameControl : Prop :=
  ∀ v s,
    let ops := [Instr.frmctlAttributes v, .frmctlWithdraw v, .frmctlFill v, .frmctlRestore v]
    ((s.act s.cur).priv = false → ∀ i ∈ ops, exec i s = .next (viewErr 1 s)) ∧
    ((s.act s.cur).priv = true → frmPage s v = none → ∀ i ∈ ops, exec i s = .next (viewErr 2 s)) ∧
    ∀ pa n, frmPage s v = some (pa, n) →
      (v.getLsbD 15 = true ∨ layoutOk (v.toNat / 16 % 256) = false ∨ frmBusy s pa n = true →
        exec (.frmctlAttributes v) s = .next (viewErr 2 s)) ∧
      (v.getLsbD 15 = false → layoutOk (v.toNat / 16 % 256) = true → frmBusy s pa n = false → Safety.memOk s →
        ∃ t, exec (.frmctlAttributes v) s = .next t ∧ t.thr = s.thr ∧
          (∀ k, k < n / 65536 → t.rawNat (recordAt s pa k) 2 = v.toNat / 16 % 256 + 256 * (v.toNat / 2 ^ 12 % 4)) ∧
          (∀ a, (∀ k, k < n / 65536 → a ≠ recordAt s pa k ∧ a ≠ recordAt s pa k + 1) →
            (v.getLsbD 14 = true → Safety.byteAt t a = if pa ≤ a ∧ a < pa + n then 0 else Safety.byteAt s a) ∧
            (v.getLsbD 14 = false → (∀ k, pa / 64 ≤ k → 64 * k < pa + n → Map.get? s.flips k = none) →
              Safety.byteAt t a = Safety.byteAt s a))) ∧
      (v.extractLsb' 4 12 ≠ 0 → ∀ i ∈ ops.tail, exec i s = .next (viewErr 2 s)) ∧
      (v.extractLsb' 4 12 = 0 →
        (frmBusy s pa n = false → (∀ k, k < n / 65536 → markOf s pa k = none) →
          ∃ t, exec (.frmctlWithdraw v) s = .next t ∧ marked pa n (some .withdrawn) s t) ∧
        (frmBusy s pa n = true ∨ (∃ k, k < n / 65536 ∧ markOf s pa k ≠ none) → exec (.frmctlWithdraw v) s = .next (viewErr 2 s)) ∧
        ((∀ k, k < n / 65536 → markOf s pa k = some .withdrawn) →
          ∃ t, exec (.frmctlFill v) s = .next t ∧ marked pa n (some .filling) s t) ∧
        ((∃ k, k < n / 65536 ∧ markOf s pa k ≠ some .withdrawn) → exec (.frmctlFill v) s = .next (viewErr 2 s)) ∧
        ((∃ k, k < n / 65536 ∧ markOf s pa k = none) → exec (.frmctlRestore v) s = .next (viewErr 2 s)) ∧
        ((∀ k, k < n / 65536 → markOf s pa k ≠ none) → (∀ e ∈ s.flight, ∀ p a m, e.2 ≠ .hostRead p a m) →
          ((∀ l ∈ (s.bu (bhOfPa pa)).bounce, l.pa < pa ∨ pa + n ≤ l.pa) →
            ∃ t, exec (.frmctlRestore v) s = .next t ∧ marked pa n none s t) ∧
          (∀ l o bs, (s.bu (bhOfPa pa)).bounce = [l] → pa ≤ l.pa → l.pa < pa + n → l.pa % 64 = 0 → Safety.memOk s →
            l.poison = false → Map.get? s.flips (l.pa / 64) = none →
            l.bytes = bs.zipIdx.map (fun x => (o + x.2, x.1)) → bs ≠ [] → o + bs.length ≤ 64 →
            ∃ t, exec (.frmctlRestore v) s = .next t ∧ (t.bu (bhOfPa pa)).bounce = [] ∧ (∀ k, k < n / 65536 → markOf t pa k = none) ∧
              ∀ a, Safety.byteAt t a = if l.pa + o ≤ a ∧ a < l.pa + o + bs.length then bs.getD (a - (l.pa + o)) 0
                else Safety.byteAt s a)))

/-! ### Acknowledgements, drains and engines -/

namespace Sys2Proof.Claims

/-- A reactor's control block lies apart from its completion ring and its error ring (Tables 07-1, 07-4). -/
def ringsApart (x : Reactor) : Prop :=
  (x.ctl + 1024 ≤ x.cq ∨ x.cq + 1024 ≤ x.ctl) ∧ (x.ctl + 1024 ≤ x.eq ∨ x.eq + 1024 ≤ x.ctl)

/-- Reactor r has one error record more in its ring, its write index has gone up, and every other byte of memory stands (R379,
R380). -/
def erred (r : Nat) (e : ErrRec) (s t : State) : Prop :=
  let x := s.re r
  let n := s.rawNat (spAddr x.core (x.ctl + 0x94)) 4
  let at_ := spAddr x.core (x.eq + 32 * (n % 32))
  Memory.rds t.mem at_ 32 = e.bytes ∧ t.rawNat (spAddr x.core (x.ctl + 0x94)) 4 = (n + 1) % 2 ^ 32 ∧
  ∀ a, (a < at_ ∨ at_ + 32 ≤ a) → (a < spAddr x.core (x.ctl + 0x94) ∨ spAddr x.core (x.ctl + 0x94) + 4 ≤ a) →
    Safety.byteAt t a = Safety.byteAt s a

/-- The same for a completion entry of 16 bytes (R378, R379). -/
def completed (r : Nat) (bs : List Byte) (s t : State) : Prop :=
  let x := s.re r
  let n := s.rawNat (spAddr x.core (x.ctl + 0x90)) 4
  let at_ := spAddr x.core (x.cq + 16 * (n % 64))
  Memory.rds t.mem at_ 16 = bs ∧ t.rawNat (spAddr x.core (x.ctl + 0x90)) 4 = (n + 1) % 2 ^ 32 ∧
  ∀ a, (a < at_ ∨ at_ + 16 ≤ a) → (a < spAddr x.core (x.ctl + 0x90) ∨ spAddr x.core (x.ctl + 0x90) + 4 ≤ a) →
    Safety.byteAt t a = Safety.byteAt s a

/-- No reactor has a queue to evaluate: each runs, or is held by something else than its queue. -/
def quiet (s : State) : Prop := ∀ e ∈ s.reac, (s.re e.1).st ≠ .idle ∧ (s.re e.1).st ≠ .hold ∧ (s.re e.1).st ≠ .settle

/-- An engine command that is the next of its engine to complete (R117, R290): none of a lower number is in flight, it waits for no
copy, for no earlier store of its core (R101) and for no earlier copy that orders it (R90), and it sends no event. -/
def completes (s : State) (id u r : Nat) (mat : Bool) (seq : W32) (ctr gen : Nat) (tag : W64 × W32) (c : Cmd) (priv : Bool) : Prop :=
  s.fl? id = some (.engine u r mat seq ctr gen tag c priv) ∧ c.dep = none ∧ c.x.ctl.getLsbD 3 = false ∧
  (∀ e ∈ s.flight, ∀ u' q k g tg c' p, e.2 = .engine u' r mat q k g tg c' p → id ≤ e.1) ∧
  storesBefore s id (coreOf u) = false ∧ (mat = false → copyHeld s id u c = false) ∧
  (s.th u).gen = gen ∧ (s.th u).act.isSome = true ∧ s.hasRe r = true ∧ ringsApart (s.re r) ∧ quiet s ∧ Safety.memOk s

/-- Memory of a bulkhead is plain: no sector is poisoned or in error, no page moves or is withdrawn, nothing is watched. -/
def plain (s : State) (bh : Nat) : Prop :=
  s.poison = [] ∧ s.flips = [] ∧ (s.bu bh).migs = [] ∧ (s.bu bh).frames = [] ∧ (s.bu bh).mwatch = []

/-- The sum over the first n numbers. -/
def sumOf (n : Nat) (f : Nat → Int) : Int := (List.range n).foldl (fun t i => t + f i) 0

end Sys2Proof.Claims

/-- R107, R108, R122, R187, R223, R217, R237, R243, R344: an acknowledged store leaves the work in flight, and its counter goes down
with the last piece of its instruction, while the activation that issued it runs; one that was refused, whose target is dead or
whose bounce buffer was full, leaves an error record of cause 1, 2 or 3 in its reactor's ring as well; one that is still to be
performed elsewhere, or that an earlier request keeps back, is not acknowledged; one that has found another owner of its piece traps its
activation where it runs, once earlier work has completed (the model's choice, log 60). A drain ends once everything of the thread set is
acknowledged. The commit then goes on with the held events on their way, and done frees the thread set. -/
def Obligations.StoresAndDrainsEnd : Prop :=
  (∀ s id q, s.fl? id = some (.store q) → q.performed = true → q.res = .ok →
    (q.ctr = none → exec (.storeAck id) s = .next (s.endFl id)) ∧
    (∀ c, q.ctr = some c → (s.th q.ts).gen = q.gen →
      (∀ e ∈ s.flight, ∀ r, e.2 = .store r → e.1 ≠ id → r.ctr.isSome = true → r.ts = q.ts → r.gen = q.gen → r.group ≠ q.group) →
      exec (.storeAck id) s = .next ((s.endFl id).modTh q.ts fun t => t.setC c (t.c c - 1))) ∧
    (((s.th q.ts).gen ≠ q.gen ∨
        ∃ e ∈ s.flight, ∃ r, e.2 = .store r ∧ e.1 ≠ id ∧ r.ctr.isSome = true ∧ r.ts = q.ts ∧ r.gen = q.gen ∧ r.group = q.group) →
      exec (.storeAck id) s = .next (s.endFl id))) ∧
  (∀ s id q va cause, s.fl? id = some (.store q) → q.performed = true →
    (q.res = .refused va ∧ cause = 1 ∨ q.res = .deadPeer va ∧ cause = 2 ∨ q.res = .bounceFull va ∧ cause = 3) →
    s.hasRe q.reactor = true → ringsApart (s.re q.reactor) → Safety.memOk s →
    ∃ t, exec (.storeAck id) s = .next t ∧ t.flight = (s.endFl id).flight ∧
      erred q.reactor { addr := BitVec.ofNat 64 va, tagt := q.tag.1, tagm := q.tag.2,
                        peer := BitVec.ofNat 32 (unitOfPa q.p.pa), cause := cause } s t) ∧
  (∀ s id q va, s.fl? id = some (.store q) → q.performed = true → q.res = .notOwner va → q.ctr = none →
    (s.th q.ts).gen = q.gen → (s.th q.ts).act.isSome = true → (s.th q.ts).mode = .run →
    exec (.storeAck id) s = .next (if s.awaits q.ts = true then s.setFl id (.store q)
      else freezeAt q.ts 0x02 none (BitVec.ofNat 64 va) (s.endFl id))) ∧
  (∀ s id q, s.fl? id = some (.store q) → q.performed = false →
    (bhOfPa q.p.pa ≠ bhOf q.ts ∨ blocked s id { ts := q.ts, ps := [q.p], store := true, rel := q.rel, wide := q.wide, epoch := q.epoch } = true) →
    exec (.storeAck id) s = .next s) ∧
  (∀ s u fin, (s.th u).mode = .drain fin →
    exec (.drainEnd u) s = .next (if allAcked s u = true then s.modTh u fun t => { t with mode := .drained fin } else s)) ∧
  (∀ s u, (s.th u).mode = .drained false → (s.act u).msgs = [] →
    ∃ t, exec (.commitComplete u) s = .next t ∧ t = { s with thr := t.thr } ∧ t.th u = { s.th u with mode := .run } ∧
      ∀ v, v ≠ u → t.th v = s.th v) ∧
  (∀ s u m c, (s.th u).mode = .drained false → (s.act u).msgs = [m] → m.after = none → (s.co (coreOf u)).sendq.length < 64 →
    s.hasRe m.reactor = true → (s.re m.reactor).conns[m.conn]? = some c → waitingOn s m.reactor m.conn = [] → c.dead = false → 0 < c.f →
    bhOfReac c.target = bhOfReac m.reactor →
    ∃ t q c', exec (.commitComplete u) s = .next t ∧ (t.th u).mode = .run ∧ (t.act u).msgs = [] ∧
      (s.nextId, Flight.entry c.target q (.conn m.reactor m.conn)) ∈ t.flight ∧ q.tag = (m.tagt, m.tagm) ∧ q.payload = m.payload ∧
      q.sender = m.sender ∧ q.port = c.tport % 64 ∧ (t.re m.reactor).conns[m.conn]? = some c' ∧ c'.f = c.f - 1) ∧
  (∀ s u, (s.th u).mode = .drained true → (s.act u).msgs = [] →
    ∃ t, exec (.doneRetire u) s = .next t ∧
      t.th u = { s.th u with mode := .free, act := none, hist := 0, blk := none, repst := 0, latch := none, bar := none, left := [],
                              away := [] } ∧
      ∀ v, v ≠ u → t.th v = s.th v)

/-- R117, R290, R299, R308, R378: the next command of an engine completes: mzero leaves 0, unpoisoned, in each selected element and
every other as it was; a copy of bytes within the own scratchpad leaves the destination with the source's bytes; each posts its
completion entry and its counter goes down. That the whole effect falls at the completion is the model's choice (log 8). -/
def Obligations.CommandsComplete : Prop :=
  ∀ s id u r mat seq ctr gen tag c priv, completes s id u r mat seq ctr gen tag c priv →
    let done (t : State) : Prop := (t.th u).c ctr = (s.th u).c ctr - 1 ∧ (t.th u).r = (s.th u).r ∧ (t.th u).pc = (s.th u).pc ∧
      ∀ f ∈ t.flight, ∀ g, f ≠ (id, Flight.engine u r mat seq ctr gen tag g priv)
    (mat = true → c.op = 0xB0 → ∃ t, exec (.engineCompletion id) s = .next t ∧ done t ∧
      completed r (complEntry seq u 0 c.ta.va 0 1) s t ∧
      ∀ n i, n < 4 → i < 1024 → elemOf t u n i =
        if n = c.x.d.start.toNat % 4 ∧ (c.x.masks = false ∨ (((s.th u).ac n).rows.getLsbD (i / 32) = true ∧
            ((s.th u).ac n).cols.getLsbD (i % 32) = true)) then (0, false) else elemOf s u n i) ∧
    (∀ p q, mat = false → c.op = 0xB7 → c.src = [p] → c.dst = [q] → c.n = p.n → p.n = q.n → 0 < p.n → c.sl = 0 → c.dl = 0 →
      c.copyOk = true → c.vis = [] → c.x.mcA = false → c.x.mcB = false → plain s (bhOf u) →
      (∃ o, p.pa = spAddr (coreOf u) o ∧ o + p.n ≤ 0x60000) → (∃ o, q.pa = spAddr (coreOf u) o ∧ o + p.n ≤ 0x60000) →
      (∀ i, i < 1024 → let a := spAddr (s.re r).core ((s.re r).ctl + i)
        (a < q.pa ∨ q.pa + q.n ≤ a) ∧ let b := spAddr (s.re r).core ((s.re r).cq + i); (b < q.pa ∨ q.pa + q.n ≤ b)) →
      ∃ t, exec (.engineCompletion id) s = .next t ∧ done t ∧
        (∀ i, i < q.n → Safety.byteAt t (q.pa + i) = Safety.byteAt s (p.pa + i)) ∧
        Memory.rds t.mem (spAddr (s.re r).core ((s.re r).cq + 16 * (s.rawNat (spAddr (s.re r).core ((s.re r).ctl + 0x90)) 4 % 64))) 16 =
          complEntry seq u 0 c.ta.va 0 0)

/-- R301 to R303: an INT8 mma of plain tiles of the own scratchpad, every element selected, adds to element (i, j) the sum of the products
of row i of A and row j of B, or puts it there when ZERO-FIRST is set, modulo 2^32; no other accumulator changes. That the whole effect
falls at the completion is the model's choice (log 8). -/
def Obligations.IntegerMultiplyAccumulate : Prop :=
  ∀ s id u r seq ctr gen tag c priv, completes s id u r true seq ctr gen tag c priv → c.op = 0xB1 → plain s (bhOf u) → c.vis = [] →
    c.x.aty = 0 → c.x.bty = 0 → c.x.masks = false → c.x.mcA = false → c.x.mcB = false → c.x.ctl.getLsbD 0 = false →
    (∀ t ∈ [c.ta, c.tb], t.ok = true ∧ t.scv = false ∧ t.core = coreOf u ∧ t.off + 31 * t.pitch + 4096 ≤ 0x60000) →
    let k := if c.x.k = 0 then 4096 else c.x.k.toNat
    let int8 (a : Nat) : Int := sgn (Safety.byteAt s a).toNat 8
    let row (t : Tile) (i j : Nat) : Int := int8 (spAddr (coreOf u) (t.off + i * t.pitch + j))
    ∃ t, exec (.engineCompletion id) s = .next t ∧ ∀ n i, n < 4 → i < 1024 → elemOf t u n i =
      if n = c.x.d.start.toNat % 4 then
        (wrap 32 ((if c.x.zf = true then 0 else ((elemOf s u n i).1 : Int)) +
          sumOf k fun j => row c.ta (i / 32) j * row c.tb (i % 32) j), (elemOf s u n i).2)
      else elemOf s u n i

/-! ### Requests at their targets -/

namespace Sys2Proof.Claims

/-- The agent of a request as its target sees it; `passed`: the gate has admitted its read before (R39). -/
def seen (s : State) (u r path : Nat) (priv passed : Bool) : Agent := { farAgent s u r path priv with passed := passed }

/-- The request of thread set u, for reactor r, for piece p may be performed now: no earlier one keeps it back (R110), its frame is
resident, and its target answers it (R25, R37, R39, R121). -/
def performs (s : State) (id u r : Nat) (p : Piece) (k : Right) (path : Nat) (priv passed : Bool) : Prop :=
  gateReady s id = true ∧ heldPiece s p = false ∧ reach s (seen s u r path priv passed) p k = .ok

/-- The side-table entry that a request for a piece from another bulkhead updates: of the first frame of its page (R83). -/
def sideEntry (s : State) (p : Piece) : Nat :=
  let b := bhOfPa p.pa
  hbmAddr b ((s.bu b).sideBase.toNat % 2 ^ 36 + 16 * (p.pa / lvlSize p.lvl * lvlSize p.lvl % 2 ^ 36 / 65536))

/-- The piece lies in plain memory that exists, in one line, and apart from its side-table entry. -/
def plainPiece (s : State) (p : Piece) : Prop :=
  plain s (bhOfPa p.pa) ∧ Safety.memOk s ∧ 0 < p.n ∧ p.pa / 64 = (p.pa + p.n - 1) / 64 ∧
  (p.pa + p.n ≤ sideEntry s p ∨ sideEntry s p + 16 ≤ p.pa)

/-- Every byte of memory outside a piece, and outside its side-table entry, stands. -/
def elsewhereStands (p : Piece) (s t : State) : Prop :=
  ∀ a, (a < p.pa ∨ p.pa + p.n ≤ a) → (a < sideEntry s p ∨ sideEntry s p + 16 ≤ a) → Safety.byteAt t a = Safety.byteAt s a

/-- The word of n bytes at an address. -/
def wordAt (s : State) (a n : Nat) : Nat := leNat (Memory.rds s.mem a n)

/-- The new value of Table 12-4 for an operation code; a compare and swap that fails gives the old value. -/
def atomicNew (a : Atomic) (m : Nat) : Nat :=
  let n := 8 * a.size
  let b := a.b.toNat % 2 ^ n
  if a.cas then (if m = a.e.toNat % 2 ^ n then b else m)
  else match a.op with
    | 0 => (m + b) % 2 ^ n
    | 1 => m &&& b
    | 2 => m ||| b
    | 3 => m ^^^ b
    | 4 => if a.signed then (if sgn m n ≤ sgn b n then m else b) else (if m ≤ b then m else b)
    | 5 => if a.signed then (if sgn b n ≤ sgn m n then m else b) else (if b ≤ m then m else b)
    | _ => b

/-- A Weevil operation in flight, unanswered, behind no unanswered one of its issuer to the same address (R112); and the same with
an answer. -/
def asked (s : State) (id : Nat) (q : WeevilReq) : Prop :=
  s.fl? id = some (.weevil q) ∧ q.reply = none ∧
  ∀ e ∈ s.flight, ∀ v, e.2 = .weevil v → e.1 < id → v.ts = q.ts → v.va = q.va → v.reply.isSome = true
def answered (t : State) (id : Nat) (q : WeevilReq) (f : WReply → Prop) : Prop :=
  ∃ r, (id, Flight.weevil { q with reply := some r }) ∈ t.flight ∧ f r

end Sys2Proof.Claims

/-- R37, R38, R110, R111, R228, R229, R75, R422: a load, a store or an atomic that reaches a target which lets it in is performed
there: the load has the bytes of its piece, the store's bytes stand in memory, the atomic has the old value and has left the new
one, in one piece. One that the target refuses fails and changes no byte. A read that a withdrawn frame holds keeps the rights that
admitted it, and ends as not resident after 50 µs; a request to another bulkhead without a reply for 100 µs ends as a dead peer. -/
def Obligations.RequestsAreServed : Prop :=
  (∀ s id u c d acq rel snap spot p, d.lanes = [(0, [p])] →
    s.fl? id = some (.load u c d none acq rel snap spot none) →
    let path := if bhOfPa p.pa = bhOf u then 0 else 4
    let r := (s.act u).reactor
    let priv := (s.act u).priv
    let answer := reach s (seen s u r path priv d.passed) p .r
    let Ends (f : Got → Prop) (t : State) : Prop := ∃ g, (id, Flight.load u c d none acq rel snap spot (some [g])) ∈ t.flight ∧ f g
    (performs s id u r p .r path priv d.passed → plainPiece s p → ∃ t, exec (.gateLoadRequest id) s = .next t ∧
      Ends (fun g => g.bytes = Memory.rds s.mem p.pa p.n ∧ g.res = .ok) t ∧
      elsewhereStands p s t ∧ ∀ a, p.pa ≤ a → a < p.pa + p.n → Safety.byteAt t a = Safety.byteAt s a) ∧
    (gateReady s id = true → answer ≠ .ok →
      ∃ t, exec (.gateLoadRequest id) s = .next t ∧ t.mem = s.mem ∧ Ends (fun g => g.res = answer) t) ∧
    (heldPiece s p = true → answer = .ok →
      (gateReady s id = true → exec (.gateLoadRequest id) s =
        .next (s.setFl id (.load u c { d with passed := true } none acq rel snap spot none))) ∧
      ∃ t, exec (.heldReadTimeout id) s = .next t ∧ t.mem = s.mem ∧ Ends (fun g => g.res = .notResident p.va) t) ∧
    (bhOfPa p.pa ≠ bhOf u → ∃ t, exec (.replyTimeout id) s = .next t ∧ t.mem = s.mem ∧ Ends (fun g => g.res = .deadPeer p.va) t)) ∧
  (∀ s id q, s.fl? id = some (.store q) → q.performed = false → bhOfPa q.p.pa ≠ bhOf q.ts → q.bytes.length = q.p.n →
    let Ends (res : Result) (t : State) : Prop := (id, Flight.store { q with performed := true, res := res }) ∈ t.flight
    let answer := reach s (farAgent s q.ts q.reactor 4 q.priv) q.p .w
    (gateReady s id = true →
      (answer = .ok → plainPiece s q.p → ∃ t, exec (.gateStoreRequest id) s = .next t ∧
        Ends .ok t ∧ Memory.rds t.mem q.p.pa q.p.n = q.bytes ∧ elsewhereStands q.p s t) ∧
      (answer ≠ .ok → ∃ t, exec (.gateStoreRequest id) s = .next t ∧ t.mem = s.mem ∧ Ends answer t)) ∧
    ∃ t, exec (.replyTimeout id) s = .next t ∧ t.mem = s.mem ∧ Ends (.deadPeer q.p.va) t) ∧
  (∀ s id u c d a acq rel snap spot p, s.fl? id = some (.load u c d (some a) acq rel snap spot none) → d.lanes = [(0, [p])] →
    p.n = a.size → performs s id u (s.act u).reactor p .a (if bhOfPa p.pa = bhOf u then 0 else 4) (s.act u).priv d.passed →
    plainPiece s p →
    ∃ t g, exec (.gateAtomicRequest id) s = .next t ∧ (id, Flight.load u c d (some a) acq rel snap spot (some [g])) ∈ t.flight ∧
      g.res = .ok ∧ leNat g.bytes = wordAt s p.pa p.n ∧ wordAt t p.pa p.n = atomicNew a (wordAt s p.pa p.n) ∧ elsewhereStands p s t)

/-- R230 to R234: the Weevil performs its operations on plain memory in one piece: famo that no switch has combined gives the old value
and leaves the new one;
mcas compares all its words, and writes all or none; lenq of an empty queue makes the node its head and its tail; pchase finds the
key in the first node, or ends at the end of the chain; a chase whose next node lies in another bulkhead, and that gets no slot
there, returns a continuation. -/
def Obligations.WeevilOperations : Prop :=
  (∀ s id q a, asked s id q → q.w = .famo a → (Map.get ({} : Wire) s.wire id).group = [] → isLed s id = false → q.p.n = a.size →
    performs s id q.ts q.reactor q.p .a 3 q.priv q.passed → plainPiece s q.p →
    ∃ t, exec (.weevilFamo id) s = .next t ∧ answered t id q (fun r => r.res = .ok ∧ r.v.toNat = wordAt s q.p.pa q.p.n % 2 ^ 64) ∧
      wordAt t q.p.pa q.p.n = atomicNew a (wordAt s q.p.pa q.p.n) ∧ elsewhereStands q.p s t) ∧
  (∀ s id q desc old new, asked s id q → q.w = .mcas desc old new → old.length = new.length → q.p.n = 8 * old.length →
    performs s id q.ts q.reactor q.p .a 3 q.priv q.passed → plainPiece s q.p →
    let same : Prop := ∀ i, i < old.length → wordAt s (q.p.pa + 8 * i) 8 = (old.getD i 0).toNat
    ∃ t, exec (.weevilMcas id) s = .next t ∧ elsewhereStands q.p s t ∧
      (same → answered t id q (fun r => r.res = .ok ∧ r.v = 1) ∧
        ∀ i, i < new.length → wordAt t (q.p.pa + 8 * i) 8 = (new.getD i 0).toNat) ∧
      (¬ same → answered t id q (fun r => r.res = .ok ∧ r.v = 0) ∧
        Memory.rds t.mem q.p.pa q.p.n = Memory.rds s.mem q.p.pa q.p.n)) ∧
  (∀ s id q n, asked s id q → q.w = .lenq n → q.p.n = 16 → n < 2 ^ 64 → performs s id q.ts q.reactor q.p .a 3 q.priv q.passed →
    plainPiece s q.p → wordAt s (q.p.pa + 8) 8 = 0 →
    ∃ t, exec (.weevilLenq id) s = .next t ∧ answered t id q (fun r => r.res = .ok) ∧ wordAt t q.p.pa 8 = n ∧
      wordAt t (q.p.pa + 8) 8 = n ∧ elsewhereStands q.p s t) ∧
  (∀ s id q key ng bd, asked s id q → q.w = .pchase key 0 ng bd none → q.p.n = 16 → q.p.va < 2 ^ 64 → plainPiece s q.p →
    performs s id q.ts q.reactor q.p .a 3 q.priv q.passed →
    (wordAt s (q.p.pa + 8) 8 = key.toNat → ∃ t, exec (.weevilPchase id) s = .next t ∧
      answered t id q (fun r => r.res = .ok ∧ r.v.toNat = q.p.va)) ∧
    (wordAt s (q.p.pa + 8) 8 ≠ key.toNat → wordAt s q.p.pa 8 = 0 → ∃ t, exec (.weevilPchase id) s = .next t ∧
      answered t id q (fun r => r.res = .ok ∧ r.v = 1))) ∧
  (∀ s id q key hops ng bd ptr p, asked s id q → q.w = .pchase key hops ng bd (some ptr) →
    weevilHop s (q.agent s (bhOfPa q.p.pa)) (bhOf q.ts) ptr 16 .r = .go p →
    bhOfPa p.pa ≠ bhOfPa q.p.pa →
    ∃ t, exec (.pchaseSlotTimeout id) s = .next t ∧ t.mem = s.mem ∧
      answered t id q (fun r => r.res = .ok ∧ r.v = BitVec.ofNat 64 (ptr ||| 3)))

/-- R56, R112, R223, R230: a reply without a failure or a flag reaches the thread set that asked, once no older operation of it on the
same address is in flight: d has the value, the counter goes down and the operation is in flight no more. A reply that reports a
failure leaves d as it is, and a completion entry with the class, the address and the unit of the failure in its reactor's ring; one
of STRUCTURAL severity cancels the activation, draining for its end or not. One that has found another owner traps the activation at
the address once earlier work has completed (the model's choice, log 60). -/
def Obligations.WeevilReplies : Prop :=
  ∀ s id q r, s.fl? id = some (.weevil q) → q.reply = some r →
    (∀ e ∈ s.flight, ∀ v, e.2 = .weevil v → v.ts = q.ts → v.va = q.va → id ≤ e.1) →
    (∀ desc old new, q.w ≠ .mcas desc old new) → (s.th q.ts).gen = q.gen → (s.th q.ts).act.isSome = true →
    r.neg = false → r.bnd = false →
    let u := q.ts
    let re := q.reactor
    ((∀ v, r.res ≠ .structural v) → (∀ v, r.res ≠ .notOwner v) →
      ∃ t, exec (.weevilReply id) s = .next t ∧ (t.th u).c q.ctr = (s.th u).c q.ctr - 1 ∧ (t.th u).pc = (s.th u).pc ∧
        (∀ e ∈ t.flight, e.1 ≠ id) ∧ (∀ v, v ≠ u → t.th v = s.th v) ∧
        (r.res = .ok → t.mem = s.mem ∧ ∀ a b, q.d = some (a, b) → (t.th u).r = (s.th u).r.put ⟨a, b⟩ r.v.toNat) ∧
        (r.res ≠ .ok → s.hasRe re = true → ringsApart (s.re re) → Safety.memOk s → (t.th u).r = (s.th u).r ∧
          completed re (complEntry q.seq r.unit r.res.cls r.res.va 0 2) s t)) ∧
    (∀ v, r.res = .notOwner v → (s.th u).mode = .run →
      exec (.weevilReply id) s = .next (if (s.endFl id).awaits u = true then s
        else freezeAt u 0x02 none (BitVec.ofNat 64 v) ((s.endFl id).decC u q.ctr))) ∧
    (∀ v, r.res = .structural v →
      ∃ t, exec (.weevilReply id) s = .next t ∧ (t.th u).mode = .free ∧ (t.th u).act = none)

/-! ### Time, arrival, dispatch and free entries -/

namespace Sys2Proof.Claims

/-- MEAS of a channel whose exchanges are those of one plane: the size of the offset, the uncertainty, and 10 ns for every
millisecond since (R345). -/
def measured (o : Int) (u since : Nat) : Nat := min (2 ^ 32 - 1) (o.natAbs + u + 10 * (since / 1000000))

/-- INSYNC and STOP follow from MEAS, the bound E and whether the partition runs (R345 to R347, Table 18-2). -/
def judged (s : State) (dev part meas : Nat) (c : Channel) : Prop :=
  c.meas = BitVec.ofNat 32 meas ∧
  (c.insync = true ↔ ∃ b rest, bhsOf s dev part = b :: rest ∧ meas ≠ 2 ^ 32 - 1 ∧
    meas ≤ s.boundE b * 2 ^ ((s.bu b).pcfg.toNat % 32)) ∧
  (c.stop = true ↔ (∃ b ∈ bhsOf s dev part, s.running b = true) ∧ c.insync = false)

/-- The valid argument word i of a reactor's extents is none (R64). -/
def noExtents (x : Reactor) : Prop := ∀ i, i < 10 → (x.exts[i]?.getD 0).getLsbD 31 = false

/-- The registers that an activation starts with: its record's address and the payload's two halves (R140). -/
def startRegs (rec_ : Nat) (q : QEntry) : Regs :=
  { scalar := BitVec.ofNat 2048 (rec_ + q.payload.toNat % 2 ^ 32 * 2 ^ 64 + q.payload.toNat / 2 ^ 32 * 2 ^ 128) }

/-- A waiting event can leave on a connection of its own bulkhead once there is an entry for it. -/
def waitsAlone (s : State) (r i k : Nat) (m : Msg) (c : Conn) : Prop :=
  (∃ rest, waitingOn s r i = (k, m) :: rest) ∧ (s.re r).conns[i]? = some c ∧ c.dead = false ∧ bhOfReac c.target = bhOfReac r ∧
  m.reactor = r ∧ m.after = none

end Sys2Proof.Claims

/-- R345 to R347, R350: local time moves on and never back, by its own rate at the root and where nothing has been measured, else with
a slew of at most 200 parts per million; an exchange takes a plane's offset and uncertainty from its four times, and MEAS, INSYNC and
STOP follow; the root's MEAS is 0 while its reference is locked and wide open when it is not. Half of an odd difference is taken
downwards (log 38); how far a time base moves in one step is the model's choice (log 13). -/
def Obligations.LocalTime : Prop :=
  (∀ s dev part ns, (ns ≤ (s.chanOf dev part).ns → exec (.localTimeAdvance dev part ns) s = .next s) ∧
    ((s.chanOf dev part).ns < ns → cricketLost s dev = false → ∃ t, exec (.localTimeAdvance dev part ns) s = .next t ∧
      let c := s.chanOf dev part
      let ppm := min c.rate 200
      let most := (c.own + (ns - c.ns)) * ppm / 1000000 - c.own * ppm / 1000000
      (t.chanOf dev part).own = c.own + (ns - c.ns) ∧
      ns ≤ (t.chanOf dev part).ns + most ∧ (t.chanOf dev part).ns ≤ ns + most ∧ c.ns ≤ (t.chanOf dev part).ns ∧
      (dev = rootOf s dev part ∨ c.planes = [] → (t.chanOf dev part).ns = ns) ∧ (∀ d p, d ≠ dev ∨ p ≠ part →
        t.chanOf d p = s.chanOf d p) ∧ t.thr = s.thr)) ∧
  (∀ s dev part plane, timingPlane s dev part plane = true → ∃ t, exec (.timingExchange dev part plane) s = .next t ∧
    (s.nextId, Flight.timing dev part plane (s.chanOf dev part).ns none) ∈ t.flight ∧ t.mem = s.mem ∧ t.thr = s.thr) ∧
  (∀ s id dev part plane t1, s.fl? id = some (.timing dev part plane t1 none) → ∃ t, exec (.timingRequest id) s = .next t ∧
    let now := (s.chanOf (rootOf s dev part) part).ns
    (id, Flight.timing dev part plane t1 (some (now, now))) ∈ t.flight ∧ t.mem = s.mem ∧ t.thr = s.thr) ∧
  (∀ s id dev part plane (t1 t2 t3 : Nat), s.fl? id = some (.timing dev part plane t1 (some (t2, t3))) →
    ∀ rate, let t4 := (s.chanOf dev part).ns
    ∃ t, exec (.timingReply id t4 rate) s = .next t ∧
      let o : Int := (((t2 : Int) - t1) - ((t4 : Int) - t3)) / 2
      let u : Nat := ((((t4 : Int) - t1) - ((t3 : Int) - t2)) / 2).toNat
      Map.get? (t.chanOf dev part).planes plane = some (o, u) ∧ (t.chanOf dev part).since = 0 ∧ (t.chanOf dev part).rate = min rate 200 ∧
      ((s.chanOf dev part).planes = [] → dev ≠ rootOf s dev part → judged s dev part (measured o u 0) (t.chanOf dev part))) ∧
  (∀ s dev part, dev = rootOf s dev part →
    (∃ t, exec (.referenceLockLoss dev part) s = .next t ∧ (t.chanOf dev part).locked = false ∧
      judged s dev part (2 ^ 32 - 1) (t.chanOf dev part)) ∧
    ∃ t, exec (.referenceLockReturn dev part) s = .next t ∧ (t.chanOf dev part).locked = true ∧
      judged s dev part 0 (t.chanOf dev part))

/-- R361, R142, R342, R350: an entry that reaches its reactor takes a free slot of the ring, its bytes stand there and it is
indexed, a straggler when its tag is not above the horizon; every other byte stands. (Of a reactor that runs, in its sender's
device, and an entry that is no straggler; a straggler of an activation that cannot be aborted is indexed late.) -/
def Obligations.EntriesArrive : Prop :=
  ∀ s id r q o, s.fl? id = some (.entry r q o) → o ≠ .unheld → s.hasRe r = true → quiet s → q.port < 16 → (s.re r).st = .run →
    (s.re r).disarming = false → (s.re r).stranded = false → (s.bu (bhOfReac r)).retired = false →
    (∀ w, o.sender = some w → devOfBh (bhOfReac w) = devOfBh (bhOfReac r)) →
    (∀ c, s.connOf o = some c → c.lost = false ∧ c.dead = false) → Safety.memOk s →
    (∃ i, i < (s.re r).depth ∧ ∀ e ∈ (s.re r).entries, e.slot ≠ i) →
    let late : Prop := (∀ w, o ≠ .start w) ∧ ∃ h, (s.re r).horizon = some h ∧ ¬ (h.1 < q.tagt ∨ h.1 = q.tagt ∧ h.2 < q.tagm)
    let Put (l : Bool) (t : State) : Prop := exec (.eventArrival id) s = .next t ∧ ∃ e, (t.re r).entries = (s.re r).entries ++ [e] ∧
      e.q = q ∧ e.owner = o ∧ e.st = .waiting ∧ e.late = l ∧ e.tarr = s.ns (bhOfReac r) ∧ e.slot < (s.re r).depth ∧
      (∀ e' ∈ (s.re r).entries, e'.slot ≠ e.slot) ∧
      (l = false → let a := spAddr (s.re r).core ((s.re r).ring + 32 * e.slot)
        Memory.rds t.mem a 32 = q.bytes ∧ ∀ b, (b < a ∨ a + 32 ≤ b) → Safety.byteAt t b = Safety.byteAt s b)
    (¬ late → ∃ t, Put false t ∧ t.thr = s.thr ∧ t.flight = (s.endFl id).flight) ∧
    (late → (∀ u, (s.re r).runTs = some u → (s.act u).restartable = false) → ∃ t, Put true t ∧ t.thr = s.thr)

/-- R99, R354, R355, R140, R144, R147, R368, R369: the lowest free thread set of a core takes the ready activation: its registers hold the
record's address and the payload, it starts at the word of the handler's entry, and its reactor runs, once what its earlier
activations stored has been performed; a trap activation starts at TRAPVEC, privileged, with the trap's registers beside its record.
An activation that stays ready ages. Where a trap's record lies, and that SUP counts with V only, is inferred (logs 24, 48). -/
def Obligations.ActivationsStart : Prop :=
  (∀ s core u us, (s.bu (bhOfCore core)).reset = false → (s.bu (bhOfCore core)).pwrSt = 0 → (s.co core).killed = false →
    freeSets s core = u :: us → Safety.memOk s →
    (∀ r p, pickCand s core = some (.ord r) → (s.re r).pend = some p → s.hasRe r = true → p.act.reactor = r → p.act.joinq = [] →
      p.lateEnt = none → p.act.kind = .ordinary → reactorOut s r = false →
      (∀ e ∈ p.act.extents.take 8, e.getLsbD 19 = false) →
      ∃ t, exec (.dispatch core) s = .next t ∧
        let rec_ := 2 ^ 60 + (s.re r).ctl
        (t.th u).mode = .run ∧ (t.th u).pc = p.act.entry &&& ~~~3#64 ∧ (t.th u).r = startRegs rec_ p.act.q ∧ (t.th u).ctr = 0 ∧
        (t.th u).arp = BitVec.ofNat 64 rec_ ∧ (t.th u).owner = some r ∧ (t.act u).q = p.act.q ∧
        (t.act u).priv = s.supervisor (coreOf u) ∧ (t.re r).st = .run ∧ (t.re r).runTs = some u ∧ (t.re r).pend = none ∧
        (∀ v, v ≠ u → t.th v = s.th v) ∧
        let a := spAddr (s.re r).core (s.re r).ctl
        wordAt t a 8 = p.act.q.tagt.toNat ∧ wordAt t (a + 8) 4 = p.act.q.tagm.toNat ∧ wordAt t (a + 12) 4 = p.act.q.sender.toNat) ∧
    (∀ e r, pickCand s core = some (.trap e r) → s.hasRe r = true → e.latePage = none → e.again = none → noExtents (s.re r) → u ≠ e.ts →
      reactorOut s r = false →
      ∃ t, exec (.dispatch core) s = .next t ∧
        let rec_ := 2 ^ 60 + (s.re r).ctl + 0x100
        (t.th u).mode = .run ∧ (t.th u).pc = (s.cl (cluOf e.ts)).trapvec &&& ~~~3#64 ∧ (t.th u).arp = BitVec.ofNat 64 rec_ ∧
        (t.act u).kind = .trap ∧ (t.act u).priv = true ∧ (t.act u).serves = e.ts ∧ (t.act u).q.tag = (s.act e.ts).q.tag ∧
        (∀ y ∈ (t.cl (cluOf e.ts)).traps, y.ts ≠ e.ts) ∧ (∀ v, v ≠ u → t.th v = s.th v) ∧
        let a := spAddr (s.re r).core ((s.re r).ctl + 0x140)
        let w := s.th e.ts
        wordAt t a 8 = w.tcause.toNat ∧ wordAt t (a + 8) 8 = w.tval.toNat ∧ wordAt t (a + 16) 8 = w.tepc.toNat ∧
          wordAt t (a + 24) 8 = w.tstat.toNat)) ∧
  (∀ s r p, s.hasRe r = true → (s.re r).pend = some p → (s.re r).st = .ready → ∃ t, exec (.priorityAging (.formed r)) s = .next t ∧
    t = { s with reac := t.reac } ∧ t.re r = { s.re r with pend := some { p with age := min (p.age + 1) (4 - (s.re r).prio) } } ∧
    ∀ k, k ≠ r → t.re k = s.re k)

/-- R344, R374, R375: a credit gives its unit of F back, or to the event that waits for it; an event that waits at F = 0 asks its target
for a spare once, and a target with a spare grants it to the oldest request; a rewrite notice turns its connection to the reactor's new
place, unless a later notice has turned it already, and is acknowledged, each acknowledgement lowers PEND, and a forwarding entry is freed
at zero or after 2^20 ticks, with what it still waits for. For an owner that is dead or sealed the notice is its acknowledgement; what
else the receiver's gate holds to come from a dead device is discarded (R424). That the host ingress is told of a HOSTRX reactor's move as
an owner of index 64 is inferred (log 40), and that a spare goes to an event before a page request is the model's choice (log 83). -/
def Obligations.EntriesAreReturned : Prop :=
  (∀ s id r i, s.fl? id = some (.credit r i) → gateDrops s (bhOfReac r) (connBh s r i) = true →
    exec (.creditReturn id) s = .next (s.endFl id)) ∧
  (∀ s id r i c, s.fl? id = some (.credit r i) → (s.re r).conns[i]? = some c → waitingOn s r i = [] →
    gateDrops s (bhOfReac r) (connBh s r i) = false →
    ∃ t c', exec (.creditReturn id) s = .next t ∧ (t.re r).conns[i]? = some c' ∧ c' = { c with f := c.f + 1 } ∧ t.mem = s.mem ∧
      t.flight = (s.endFl id).flight) ∧
  (∀ s id r i k m c, s.fl? id = some (.credit r i) → waitsAlone s r i k m c → k ≠ id → c.f = 0 →
    gateDrops s (bhOfReac r) (connBh s r i) = false →
    ∃ t q, exec (.creditReturn id) s = .next t ∧ (k, Flight.entry c.target q (.conn r i)) ∈ t.flight ∧
      q.tag = (m.tagt, m.tagm) ∧ q.payload = m.payload) ∧
  (∀ s id m c, s.fl? id = some (.event m) → (s.re m.reactor).conns[m.conn]? = some c → c.f = 0 → c.asked = false → c.granted = false →
    c.dead = false →
    s.hasRe (liveKey s 4 c.target) = true → gateDrops s (connBh s m.reactor m.conn) (bhOfReac m.reactor) = false →
    ∃ t c', exec (.spareRequest id) s = .next t ∧ (t.re m.reactor).conns[m.conn]? = some c' ∧ c' = { c with asked := true } ∧
      (t.re (liveKey s 4 c.target)).spareReqs = (s.re (liveKey s 4 c.target)).spareReqs ++ [(m.reactor, m.conn)]) ∧
  (∀ s r q i rest k m c, s.hasRe r = true → 0 < (s.re r).spares → (s.re r).spareReqs = (q, i) :: rest → waitsAlone s q i k m c →
    c.asked = true → c.f = 0 → gateDrops s (bhOfReac q) (bhOfReac r) = false →
    ∃ t e, exec (.spareGrant r) s = .next t ∧ (t.re r).spares = (s.re r).spares - 1 ∧ (t.re r).spareReqs = rest ∧
      (k, Flight.entry c.target e (.spareOf q i)) ∈ t.flight ∧ e.tag = (m.tagt, m.tagm) ∧ e.payload = m.payload) ∧
  (∀ s id r i cl slot w, s.fl? id = some (.notice r i cl slot) → (s.cl cl).fwd.find? (fun e => e.1 == slot) = some (slot, w) →
    let now := cluOf w.ncoord * 65536 + w.nrid
    let gone : Prop := i ≠ 64 ∧ ownerGone s (bhOf w.ncoord) r = true
    (gone → exec (.rewriteNotice id) s = .next (s.setFl id (.noticeAck cl slot (bhOfClu cl)))) ∧
    (¬ gone → gateDrops s (bhOfReac r) (bhOf w.ncoord) = true → exec (.rewriteNotice id) s = .next (s.endFl id)) ∧
    (¬ gone → gateDrops s (bhOfReac r) (bhOf w.ncoord) = false → ∃ t, exec (.rewriteNotice id) s = .next t ∧
      (id, Flight.noticeAck cl slot (bhOfReac r)) ∈ t.flight ∧
      (∀ c, i ≠ 64 → (s.re r).conns[i]? = some c → (t.re r).conns[i]? = some
        (if s.hasRe c.target = true then c else { c with target := now, tcore := w.ncoord / 4 })) ∧
      (i = 64 → (t.de (devOfBh (bhOfClu cl))).moved.find? (fun m => m.1 == cl * 256 + w.ocore) = some (cl * 256 + w.ocore, now)))) ∧
  (∀ s id cl slot bh, s.fl? id = some (.noticeAck cl slot bh) → ∃ t, exec (.rewriteAck id) s = .next t ∧
    t.flight = (s.endFl id).flight ∧ (∀ i w, i ≠ slot → ((i, w) ∈ (t.cl cl).fwd ↔ (i, w) ∈ (s.cl cl).fwd)) ∧
    ∀ w, (slot, w) ∈ (t.cl cl).fwd ↔ 1 ≤ w.pend ∧ (slot, { w with pend := w.pend + 1 }) ∈ (s.cl cl).fwd) ∧
  (∀ s cl slot w, (s.cl cl).fwd.find? (fun e => e.1 == slot) = some (slot, w) →
    let age := (s.ticks (bhOfClu cl) + 2 ^ 32 - w.born.toNat) % 2 ^ 32
    (age < 2 ^ 20 → exec (.forwardExpiry cl slot) s = .next s) ∧
    (2 ^ 20 ≤ age → ∃ t, exec (.forwardExpiry cl slot) s = .next t ∧ t.reac = s.reac ∧ t.thr = s.thr ∧ t.mem = s.mem ∧
      (t.cl cl).fwd = (s.cl cl).fwd.filter (fun (e : Nat × Fwd) => e.1 != slot) ∧
      ∀ k x, (k, x) ∈ t.flight ↔ (k, x) ∈ s.flight ∧ (∀ b, x ≠ .noticeAck cl slot b) ∧ ∀ r i, x ≠ .notice r i cl slot))

/-! ### Translation, the life of a reactor, and the memory controllers -/

namespace Sys2Proof.Claims

/-- How a gate answers a pin message: 0 admitted, 1 refused, 2 a dead peer, 3 malformed (R62, R67). That it judges the message as an
access of one byte, the first of the frame, is inferred (log 50). -/
def pinAnswer (s : State) (g : Agent) (leaf : W128) (va : Nat) : Nat :=
  match reach s g { va := va, pa := leafAddr leaf, n := 1 } .r with
  | .deadPeer _ => 2
  | .ok => if tenantOk s leaf = true then 0 else 3
  | _ => 1

/-- The frame of a page has n pins (R67). -/
def pinsOf (s : State) (pa : Nat) : Nat := Map.get 0 (s.bu (bhOfPa pa)).pinCount (pa % 2 ^ 36 / 65536)

/-- The forwarding table of a reactor's cluster and the reactor numbers of the one it moves to have room (R374). -/
def roomAt (s : State) (r dst : Nat) : Prop :=
  (s.cl (cluOfReac r)).fwd.length < 64 ∧
  ∃ i, i < 65536 ∧ s.hasRe (cluOfCore dst * 65536 + i) = false ∧ stillNamed s (cluOfCore dst * 65536 + i) = false ∧
    ∀ w ∈ (s.cl (cluOfCore dst)).fwd, w.2.orid ≠ i

/-- Reactor r may move to a core of another place: nothing of it is in progress, and there is room (R372 to R374). -/
def mayMove (s : State) (r dst : Nat) : Prop :=
  s.hasRe r = true ∧ engines s r = false ∧ sideBusy s r = false ∧ (s.re r).runTs = none ∧ reactorOut s r = false ∧ roomAt s r dst

/-- A port may write the management space of a bulkhead of its device: its link is up, boot is done, and it holds HSEM, or it does
not (R432, R433, R439). -/
def reaches (s : State) (p bh : Nat) : Prop :=
  (s.po p).up = true ∧ (s.de (p / 2)).done = true ∧ devOfBh bh = p / 2 ∧ bh % 32 < 24
def holdsHsem (s : State) (p : Nat) : Prop := (s.de (p / 2)).owner = if p % 2 = 0 then 1 else 2

/-- A write that is ignored under a view rule sets MSTAT.VE of the port and nothing else (R432). -/
def portError (p : Nat) (s : State) : State := s.modPo p fun q => { q with ve := true }

/-- A port has what a read completed with; nothing else of the port has changed. -/
def read (p : Nat) (bs : List Byte) (poison : Bool) (t : State) : Prop := (t.po p).resp = bs ∧ (t.po p).respPoison = poison

end Sys2Proof.Claims

/-- R66, R67, R71, R77, R78, R216: a walk that ends makes a formed activation ready, or maps and pins the code page that a fetch
waits for; a gate admits a pin and counts it, or refuses it; an admitted pin makes its activation ready or its late page's entry
to be filled, and the fill lets the thread set go on; a pager's answer lets the walk that waits go on, or, declined, traps at the
access with its lane once earlier work has completed, and one that matches no request is a view error. That the gate judges a pin
message as an access of one byte, the first of the frame, is inferred (log 50). -/
def Obligations.TranslationsEnd : Prop :=
  (∀ s id r p, s.fl? id = some (.walk (.dispatch r) false) → s.hasRe r = true → (s.re r).pend = some p → p.latePage = none →
    noExtents (s.re r) → (∀ e ∈ s.flight, e.2 ≠ .heldRead id) → ∃ t p', exec (.tableWalkDone id) s = .next t ∧ (t.re r).st = .ready ∧
      (t.re r).pend = some p' ∧
      p'.act.q = p.act.q ∧ p'.act.pins = [] ∧ t.flight = (s.endFl id).flight ∧ t.mem = s.mem) ∧
  (∀ s s' id u va e lvl en, s.fl? id = some (.walk (.code u va) false) → (s.th u).act.isSome = true → (s.th u).mode = .parked id →
    walkSeq s (cluOf u) (s.act u).priv va = (s', .leaf e lvl en) → pteR e = true → (s.act u).pins.contains (leafAddr e) = false →
    bhOfPa (leafAddr e) = bhOf u → isSp (leafAddr e) = false → tenantOk s' e = true → pinsOf s (leafAddr e) ≠ 255 →
    ∃ t, exec (.tableWalkDone id) s = .next t ∧ (t.th u).mode = .run ∧ (t.th u).pc = (s.th u).pc ∧ t.mem = s'.mem ∧
      (t.act u).code = { va := va / lvlSize lvl * lvlSize lvl, size := lvlSize lvl, pa := leafAddr e } :: (s.act u).code ∧
      (t.act u).pins = leafAddr e :: (s.act u).pins ∧ pinsOf t (leafAddr e) = pinsOf s (leafAddr e) + 1) ∧
  (∀ s id r leaf lvl va en, s.fl? id = some (.pin (.dispatch r) leaf lvl va en none) →
    let cl := cluOfReac r
    let n := pinAnswer s { unit := cl * 1024, bh := cl / 4, part := s.partOf (cl / 4), priv := false, path := 4 } leaf va
    let pa := leafAddr leaf
    let Answers (t : State) : Prop := (id, Flight.pin (.dispatch r) leaf lvl va en (some n)) ∈ t.flight ∧ t.mem = s.mem ∧ t.thr = s.thr
    (n ≠ 0 → ∃ t, exec (.pinMessage id) s = .next t ∧ Answers t ∧ pinsOf t pa = pinsOf s pa) ∧
    (n = 0 → isSp pa = false → pinsOf s pa ≠ 255 → ∃ t, exec (.pinMessage id) s = .next t ∧ Answers t ∧ pinsOf t pa = pinsOf s pa + 1) ∧
    (n = 0 → isSp pa = false → pinsOf s pa = 255 → exec (.pinMessage id) s = .next s)) ∧
  (∀ s id r leaf lvl va en p, s.fl? id = some (.pin (.dispatch r) leaf lvl va en (some 0)) → s.hasRe r = true →
    (s.re r).st = .xlate → (s.re r).pend = some p → isSp (leafAddr leaf) = false → ∃ t p', exec (.pinReply id) s = .next t ∧
      (t.re r).pend = some p' ∧ p'.pinsOut = p.pinsOut - 1 ∧ p'.act.pins = p.act.pins ++ [leafAddr leaf] ∧
      ((t.re r).st = .ready ↔ p.pinsOut ≤ 1)) ∧
  (∀ s id u va xi k leaf lvl en, s.fl? id = some (.pin (.lateMiss u va xi k) leaf lvl va en (some 0)) →
    exec (.pinReply id) s = .next (s.setFl id (.fill u va xi (leafFrag s leaf lvl)))) ∧
  (∀ s id u va xi frag, s.fl? id = some (.fill u va xi frag) → (s.co (coreOf u)).late.length ≤ 16 →
    ((s.co (coreOf u)).late.length < 16 ∨ ∀ i, i < 16 → ∃ x ∈ (s.co (coreOf u)).late, x.1 = i) →
    ∃ t i, exec (.lateTranslationFill id) s = .next t ∧
    (t.th u).mode = .run ∧ (t.th u).r = (s.th u).r ∧ (t.th u).pc = (s.th u).pc ∧ t.flight = (s.endFl id).flight ∧
    (i, BitVec.ofNat 128 (va / 65536 * 2 ^ 80 + u % 4 * 2 ^ 78 + xi * 2 ^ 77 + frag.toNat)) ∈ (t.co (coreOf u)).late ∧
    (t.co (coreOf u)).late.length ≤ 16) ∧
  (∀ s id sender num no u, s.fl? id = some (.answer sender num no u) → (s.th u).mode = .stalled id →
    ((s.cl (cluOf sender)).reqs = [] → exec (.pagerAnswerArrival id) s = .next
      ((s.endFl id).modTh u fun t => { t with ve := true, vec := 2, mode := .run })) ∧
    (∀ q, (s.cl (cluOf sender)).reqs = [q] → q.posted = true → q.num = num → q.core * 4 = sender →
      (∀ r, s.fl? q.walk = some (.walk (.dispatch r) true) → no = false → s.hasRe r = true → ∃ t, exec (.pagerAnswerArrival id) s = .next t ∧
        (q.walk, Flight.walk (.dispatch r) false) ∈ t.flight ∧ (t.re r).st = .xlate ∧ (t.cl (cluOf sender)).reqs = [] ∧
        t.th u = { s.th u with mode := .run }) ∧
      (∀ v va xi k, s.fl? q.walk = some (.walk (.lateMiss v va xi k) true) → v ≠ u →
        (no = false → ∃ t, exec (.pagerAnswerArrival id) s = .next t ∧ (q.walk, Flight.walk (.lateMiss v va xi k) false) ∈ t.flight ∧
          t.th u = { s.th u with mode := .run } ∧ t.th v = s.th v) ∧
        (no = true → s.loading v = false → s.owed v s.nextId = false → ∃ t, exec (.pagerAnswerArrival id) s = .next t ∧
          t.th u = { s.th u with mode := .run } ∧ (t.th v).mode = .frozen ∧ (t.th v).tval = (s.th v).miss.1 ∧
          (t.th v).tcause = (match (s.th v).miss.2 with | none => 2 | some l => BitVec.ofNat 64 (2 + 256 * l + 2048))))))

/-- R367, R372 to R375, R138, R389, R409: a trap entry without an answer turns to the backup buddy, and without any buddy its activation
is cancelled, with a record; a reactor that moves stands on its new core, with its bank formats and its control block, and its issuer goes
on with status 0; a disarmed gang's instances are released; the reactor of a killed core goes to the next core that may take it, or is
stranded; a recorded input is enqueued once there is an entry for it, or the replay diverges. Inferred: that a trap entry with a usable
primary keeps waiting (log 47), that a reactor keeps its scratchpad offsets on its new core (log 26), and that a recorded host message
without a HOSTRX reactor sets DIV (log 96). -/
def Obligations.ReactorsLive : Prop :=
  (∀ s u e, (s.cl (cluOf u)).traps.find? (fun e => e.ts == u) = some e →
    ((backupOf s u).isSome = true → e.backup = false → exec (.buddyTimeout u) s = .next (s.modCl (cluOf u) fun c =>
      { c with traps := c.traps.map fun (x : TrapEntry) => if x.ts = u then { x with backup := true } else x })) ∧
    (primaryOf s u = none → backupOf s u = none → (s.act u).kind = .ordinary → ∃ t, exec (.buddyTimeout u) s = .next t ∧
      (t.th u).mode = .free ∧ (t.th u).act = none ∧ Map.get? (t.bu (bhOf u)).log ((s.bu (bhOf u)).logN % 4096) = some
        { addr := (s.th u).tepc, tagt := (s.act u).q.tagt, tagm := (s.act u).q.tagm, peer := BitVec.ofNat 32 u, cause := 18,
          aux := (s.th u).tcause.setWidth 32 })) ∧
  (∀ s id r dst ts d, s.fl? id = some (.move r dst ts d) → mayMove s r dst → (s.th ts).mode = .stalled id →
    ∃ t k, exec (.migrationTakeover id) s = .next t ∧ t.hasRe r = false ∧ t.hasRe k = true ∧ cluOfReac k = cluOfCore dst ∧
      (t.re k).core = dst ∧ (t.th ts).mode = .run ∧ (t.th ts).r = (s.th ts).r.put ⟨d.1, d.2⟩ 0 ∧ (t.th ts).pc = (s.th ts).pc ∧
      (∀ b ∈ (s.re r).banks, b < 12 → t.bfmt dst b = s.bfmt (s.re r).core b) ∧
      (Safety.memOk s → s.flips = [] → (s.re r).entries = [] → (s.re r).requeued = [] → dst ≠ (s.re r).core → (s.re r).ctl % 64 = 0 →
        (∀ g ∈ (s.re r).ranges, g.1 + g.2 ≤ 0x60000) → (∀ b, trEn (s.bu b).trctl = false) →
        (∀ e ∈ s.reac, e.1 ≠ r → (s.re e.1).st ≠ .idle ∧ (s.re e.1).st ≠ .hold) →
        ∀ i, i < 1024 → Safety.byteAt t (spAddr dst ((s.re r).ctl + i)) = Safety.byteAt s (spAddr (s.re r).core ((s.re r).ctl + i)))) ∧
  (∀ s id part gang rec_ p g, s.fl? id = some (.disarm part gang rec_ none (some p)) →
    gangGoing s part gang rec_ = some g → (∀ r ∈ g.keys, instanceBusy s r = false ∧ releaseWaits s r = false) →
    ∃ t, exec (.disarmRelease id) s = .next t ∧ (∀ r ∈ g.keys, t.hasRe r = false) ∧
      (t.pt part).gangs = (s.pt part).gangs.erase g ∧ (t.po p).armBusy = false ∧ (t.po p).armStatus = 0) ∧
  (∀ s core r x, (s.co core).killed = true → s.reac.filter (fun e => e.2.core == core) = [(r, x)] → s.re r = x → x.stranded = false →
    x.st ≠ .move →
    (restartCore s x core = none → ∃ t, exec (.coreRestart core) s = .next t ∧ (t.re r).stranded = true ∧ (t.re r).core = core) ∧
    (∀ dst, restartCore s x core = some dst → s.hasRe r = true → roomAt s r dst →
      ∃ t k, exec (.coreRestart core) s = .next t ∧ t.hasRe r = false ∧ (t.re k).core = dst ∧ cluOfReac k = cluOfCore dst)) ∧
  (∀ s bh i, rpMode (s.bu bh) = 2 →
    ((List.range (feedCap s bh)).drop (s.bu bh).feedIdx).find? (fun i => feedKind (feedRec s bh i) == 5) = some i →
    let rec_ := feedRec s bh i
    let due : Prop := rb rec_ 0x28 8 / 2 ^ ((s.bu bh).pcfg.toNat % 32) ≤ s.ticks bh
    let core := coreOf (rb rec_ 0x0C 4 % 2 ^ 27)
    (¬ due → exec (.replayFeedInput bh) s = .next s) ∧
    (due → rb rec_ 0x13 1 / 8 % 2 = 1 →
      (hostrxOf s core = none → ∃ t, exec (.replayFeedInput bh) s = .next t ∧ (t.bu bh).feedIdx = i + 1 ∧
        (t.bu bh).rpctl.getLsbD 61 = true ∧ t.mem = s.mem ∧ t.reac = s.reac) ∧
      (∀ r, hostrxOf s core = some r → (s.re r).ingressFree = 0 → (s.re r).spares = 0 → exec (.replayFeedInput bh) s = .next s) ∧
      (∀ r, hostrxOf s core = some r → s.hasRe r = true → 0 < (s.re r).ingressFree → (s.re r).st = .run → (s.re r).disarming = false →
        (s.re r).stranded = false → (s.re r).horizon = none → rb rec_ 0x12 1 % 64 = 0x30 → quiet s → ∃ t e, exec (.replayFeedInput bh) s = .next t ∧
        (t.bu bh).feedIdx = i + 1 ∧ (t.re r).entries = (s.re r).entries ++ [e] ∧ (t.re r).ingressFree = (s.re r).ingressFree - 1 ∧
        e.q.tag = (BitVec.ofNat 64 (rb rec_ 0 8), BitVec.ofNat 32 (rb rec_ 8 4)) ∧ e.q.payload.toNat = rb rec_ 0x20 8)))

/-- R80 to R84, R53, R40, R75: a migration entry takes a valid value, its PTR kept by the controller, and each copy moves one line and
PTR; a write of a side-table entry keeps its reserved bits 0; flipped bits add to those of their sector, and those that spoil the metadata
of an elided line leave it poisoned at STRUCTURAL severity; a host's accesses of resident memory read and write its bytes, a read of a
hole is poisoned and a write of one sets HOLE; what a host gets while the bulkhead is in reset or OFF is inferred (log 39), and where a
controller keeps its migration table, a spoilt entry of which is lost, is presumed (log 78). That the side table's base is taken as
written, 0 too, is inferred (log 31); which lines are elided (log 61), and which values of a migration entry are taken and which ignored
(log 91), are the model's choice. -/
def Obligations.MemoryControllers : Prop :=
  (∀ s p bh i v, reaches s p bh → i < 64 →
    (¬ holdsHsem s p → exec (.migrationEntryWrite p bh i v) s = .next (portError p s)) ∧
    (holdsHsem s p → migValid s bh i v = false → exec (.migrationEntryWrite p bh i v) s = .next (portError p s)) ∧
    (holdsHsem s p → migValid s bh i v = true → ∃ t, exec (.migrationEntryWrite p bh i v) s = .next t ∧ t.mem = s.mem ∧
      let w : W128 := Map.get 0 (t.bu bh).migs i
      w.extractLsb' 124 4 = v.extractLsb' 124 4 ∧ w.extractLsb' 0 99 = v.extractLsb' 0 99 ∧
      (migState v = 2 → migPtr w = migPtr (Map.get 0 (s.bu bh).migs i)) ∧ (migState v ≠ 2 → migPtr w = 0) ∧
      ∀ j, j ≠ i → Map.get? (t.bu bh).migs j = Map.get? (s.bu bh).migs j)) ∧
  (∀ s bh i, let e : W128 := Map.get 0 (s.bu bh).migs i
    (migState e ≠ 1 ∨ migLines e ≤ migPtr e → exec (.migrationLineCopy bh i) s = .next s) ∧
    (migState e = 1 → migPtr e < migLines e → ∃ t, exec (.migrationLineCopy bh i) s = .next t ∧
      let w : W128 := Map.get 0 (t.bu bh).migs i
      migPtr w = migPtr e + 1 ∧ migOld w = migOld e ∧ migNew w = migNew e ∧ migLines w = migLines e ∧
      migState w = (if migPtr e + 1 = migLines e then 2 else 1) ∧
      (migPtr e + 1 < migLines e → Safety.memOk s → s.flips = [] → ∀ a, Safety.byteAt t a =
        if migNew e + 64 * migPtr e ≤ a ∧ a < migNew e + 64 * migPtr e + 64 then
          Safety.byteAt s (migOld e + 64 * migPtr e + (a - (migNew e + 64 * migPtr e))) else Safety.byteAt s a))) ∧
  (∀ s frame (v : W128), let pa := frame * 65536
    let e := hbmAddr (bhOfPa pa) ((s.bu (bhOfPa pa)).sideBase.toNat % 2 ^ 36 + 16 * (pa % 2 ^ 36 / 65536))
    (isSp pa = true ∨ paOk pa = false → exec (.sideTableWrite frame v) s = .next s) ∧
    (isSp pa = false → paOk pa = true → Safety.memOk s → ∃ t, exec (.sideTableWrite frame v) s = .next t ∧
      wordAt t e 16 = v.toNat / 128 * 128 ∧ ∀ a, (a < e ∨ e + 16 ≤ a) → Safety.byteAt t a = Safety.byteAt s a)) ∧
  (∀ s k d c, let table := migTableAt (bhOfPa (64 * k))
    (isSp (64 * k) = false → table ≤ 64 * k → 64 * k < table + 1024 → paOk (hbmAddr (bhOfPa (64 * k)) 0) = true →
      (judge 0 false d c).sev.all (fun x => decide (3 ≤ x)) = true → ∃ t, exec (.memoryBitError k d c) s = .next t ∧ t.mem = s.mem ∧
        ∀ j, j < 4 → 4 * ((64 * k - table) / 64) + j ∈ (t.bu (bhOfPa (64 * k))).migBad) ∧
    (paOk (64 * k) = false → isSp (64 * k) = true ∨ 64 * k < table ∨ table + 1024 ≤ 64 * k → exec (.memoryBitError k d c) s = .next s) ∧
    (paOk (64 * k) = true → s.elided.contains k = false →
      ∃ t, exec (.memoryBitError k d c) s = .next t ∧ t = { s with flips := t.flips } ∧
      (let o := Map.get (0, 0) s.flips k
       Map.get (0, 0) t.flips k = (o.1 ^^^ d, o.2 ^^^ c)) ∧ ∀ j, j ≠ k → Map.get? t.flips j = Map.get? s.flips j) ∧
    (paOk (64 * k) = true → s.elided.contains k = true → (judge 0 false d c).sev.any (3 ≤ ·) = true →
      ∃ t, exec (.memoryBitError k d c) s = .next t ∧ t.mem = s.mem ∧ t.poison.contains k = true ∧ (readLine t (64 * k) 64).2.1 = 4)) ∧
  (∀ s p off bs n, (s.po p).up = true → (s.de (p / 2)).done = true →
    (hostPa s p off n = none → ∃ t, exec (.cxlMemRead p off n) s = .next t ∧ read p [] true t ∧ t.mem = s.mem) ∧
    (hostPa s p off bs.length = none → exec (.cxlMemWrite p off bs) s = .next (s.modPo p fun q => { q with hole := true })) ∧
    (∀ pa, hostPa s p off n = some pa → hostShut s (bhOfPa pa) = true →
      ∃ t, exec (.cxlMemRead p off n) s = .next t ∧ read p [] true t ∧ t.mem = s.mem) ∧
    (∀ pa, hostPa s p off bs.length = some pa → hostShut s (bhOfPa pa) = true → exec (.cxlMemWrite p off bs) s = .next s) ∧
    (∀ pa, hostPa s p off n = some pa → hostShut s (bhOfPa pa) = false → plain s (bhOfPa pa) → 0 < n → pa / 64 = (pa + n - 1) / 64 →
      ∃ t, exec (.cxlMemRead p off n) s = .next t ∧ read p (Memory.rds s.mem pa n) false t ∧ t.mem = s.mem) ∧
    (∀ pa, hostPa s p off bs.length = some pa → hostShut s (bhOfPa pa) = false → plain s (bhOfPa pa) → Safety.memOk s → 0 < bs.length →
      pa / 64 = (pa + bs.length - 1) / 64 → ∃ t, exec (.cxlMemWrite p off bs) s = .next t ∧ ∀ a, Safety.byteAt t a =
        if pa ≤ a ∧ a < pa + bs.length then bs.getD (a - pa) 0 else Safety.byteAt s a))

/-! ### Links, switches and heartbeats -/

namespace Sys2Proof.Claims

/-- The end of a link that belongs to a device or its leaf; the other end is `peer` (R412). -/
def fabricEnd (e : Nat) : Prop := e < 65536
def peer (e : Nat) : Nat := if e < 32768 then e + 32768 else e - 32768

/-- A flit can come in at an end of a link that is up, where a switch's input is free; and the header of the flit that was sent in its
place, the oldest on its way. -/
def canArrive (s : State) (e : Nat) : Prop := fabricEnd e ∧ (s.li e).up = 2 ∧ endBusy e s = false
def sentHdr (s : State) (e : Nat) (f : Flit) : W64 := ((s.li (peer e)).out.head?.map (·.hdr)).getD f.hdr

/-- A sequenced flit, the next after those of which the counter is known, arrives at an end of a link that is up, and the counter that its
slot has reached (R416, R426). -/
def arrives (s : State) (e : Nat) (f : Flit) (ctr : Nat) : Prop :=
  canArrive s e ∧ sequenced f.hdr = true ∧ (f.crc = Flit.crcOf f.hdr f.body f.tag ∨ sequenced (sentHdr s e f) = true) ∧
    hdrSeq f.hdr = (s.li e).rxTop + 1 ∧
  (s.li e).rxCtr[(hdrKs f.hdr).toNat]? = some ctr

/-- A link end retrains (R428). -/
def retrains (e : Nat) (t : State) : Prop := (t.li e).up = 1 ∧ (t.li (peer e)).up = 1 ∧ (t.li e).out = []

/-- An end of a link has a fresh pair of keys for each direction, counters and sequence numbers from zero (R428). -/
def fresh (l m : Link) (tx rx : Nat) : Prop :=
  m.txKey = #v[some tx, some (tx + 1)] ∧ m.rxKey = #v[some rx, some (rx + 1)] ∧ m.rxSeq = 0xFFF ∧ m.ks = false ∧
  ((∀ x ∈ l.retry, sequenced x.2.hdr = true) → m.seq = BitVec.ofNat 12 l.retry.length) ∧ m.waitSeq = none ∧ m.fails = 0

/-- A transaction flit for a device, at an age, that no slot combines and that is no reply. -/
def flitFor (f : Flit) (dev age : Nat) : Prop :=
  hdrType f.hdr = 1 ∧ hdrDev f.hdr = dev ∧ hdrAge f.hdr = age ∧ hdrCmb f.hdr = false ∧ repliesKind f.body = false

/-- A switch that works and holds nothing back. -/
def empty (k : Switch) : Prop := k.failed = false ∧ k.hold = [] ∧ k.comb = [] ∧ k.own = []

/-- An output of a switch can take a flit: its link is up, with room in the retry buffer, and no marker is due (R416, R427). -/
def canTake (s : State) (w port : Nat) : Prop :=
  let l := s.li (switchEnd w port)
  l.up = 2 ∧ l.retry.length < 256 ∧ l.backlog = [] ∧ l.tx < 2 ^ 40 - 2 ^ 24

/-- A flit leaves by a port of a switch, sealed anew on its link: for a device, at an age, with HOLD clear, of the body given. -/
def leavesBy (s t : State) (w port dev age : Nat) (body : BitVec 1792) : Prop :=
  let e := switchEnd w port
  ∃ f q, (t.li e).out = (s.li e).out ++ [f] ∧ (t.li e).retry = (s.li e).retry ++ [(f, q)] ∧ q.body = body ∧ hdrType f.hdr = 1 ∧
    hdrDev f.hdr = dev ∧ hdrAge f.hdr = age ∧ hdrHold f.hdr = false

end Sys2Proof.Claims

/-- R413, R416, R425 to R428: a flit that comes in SEQ order and opens is accepted, one out of order or that fails is not, and a third
failure of one SEQ retrains the link; a flit under the other slot retires the slot before; a NAK has every later flit sent again; the
marker is sealed at the limit, or the link retrains where the other slot is empty; a retrain ends with fresh keys; a lane that fails
which the link used narrows it or takes it down, the sequenced flits on their way being sent again and the others being void; the links of
a failed switch stay down; a slot that both ends of a direction have emptied is loaded anew, with one key. That a link carries flits apart
from the requests of agents is the model's choice (log 36). Inferred: that a flit whose CRC fails is known by its place among the flits
sent, its header telling nothing, and that counters are kept by SEQ (log 37); that a link begins to train after its bulkhead's reset
(log 42). -/
def Obligations.LinksCarryFlits : Prop :=
  (∀ s e f ctr, arrives s e f ctr →
    let l := s.li e
    let want := l.rxSeq + 1
    let ks := hdrKs f.hdr
    (∀ b, l.opens e ctr f = some b → hdrSeq f.hdr = want → ∃ t, exec (.flitReceive e f) s = .next t ∧
      (t.li e).rxSeq = want ∧ (t.li e).waitSeq = none ∧ (t.li e).fails = 0 ∧ (t.li e).hold = hdrHold f.hdr ∧ (t.li e).rxLast = ks ∧
      (ks ≠ l.rxLast → exec (.markerReceived e f) s = .next t ∧ (t.li e).rxKey[l.rxLast.toNat]? = some none)) ∧
    (ks = l.rxLast → exec (.markerReceived e f) s = .next s) ∧
    (l.opens e ctr f = none → l.waitSeq = none → ∃ t, exec (.flitReceive e f) s = .next t ∧ (t.li e).rxSeq = l.rxSeq ∧
      (t.li e).waitSeq = some want ∧ (t.li e).fails = l.fails + 1 ∧ (2 ≤ l.fails → retrains e t)) ∧
    (∀ b, l.opens e ctr f = some b → hdrSeq f.hdr ≠ want → l.waitSeq = none → ∃ t, exec (.flitReceive e f) s = .next t ∧
      (t.li e).rxSeq = l.rxSeq ∧ (t.li e).waitSeq = if (want - hdrSeq f.hdr).toNat ≤ 256 then none else some want)) ∧
  (∀ s e f, canArrive s e → sequenced (sentHdr s e f) = true → f.crc ≠ Flit.crcOf f.hdr f.body f.tag → (s.li e).waitSeq = none →
    ∃ t, exec (.flitReceive e f) s = .next t ∧ (t.li e).rxTop = (s.li e).rxTop ∧ (t.li e).rxSeen = (s.li e).rxSeen ∧
      (t.li e).rxCtr = (s.li e).rxCtr ∧ (t.li e).rxSeq = (s.li e).rxSeq ∧ (t.li e).waitSeq = some ((s.li e).rxSeq + 1) ∧
      (t.li e).fails = (s.li e).fails + 1 ∧ (t.li e).authf = (s.li e).authf) ∧
  (∀ s e f, canArrive s e →
    let crcOk : Prop := f.crc = Flit.crcOf f.hdr f.body f.tag
    let same (t : State) : Prop := exec (.flitReceive e f) s = .next t ∧ (t.li e).rxSeq = (s.li e).rxSeq ∧
      (t.li e).waitSeq = (s.li e).waitSeq ∧ (t.li e).fails = (s.li e).fails
    (¬ crcOk → sequenced (sentHdr s e f) = false → (s.li (peer e)).cut = 0 → (s.li e).unseqFails < 15 →
      ∃ t, same t ∧ (t.li e).unseqFails = (s.li e).unseqFails + 1 ∧
        (t.li e).authf.toNat = min ((s.li e).authf.toNat + 1) 0xFFFF) ∧
    ((crcOk ∧ sequenced f.hdr = false ∨ ¬ crcOk ∧ sequenced (sentHdr s e f) = false) → 0 < (s.li (peer e)).cut →
      ∃ t, same t ∧ (t.li e).unseqFails = (s.li e).unseqFails ∧ (t.li e).authf = (s.li e).authf ∧ t.sw = s.sw ∧ t.bh = s.bh ∧
        (t.li (peer e)).cut = (s.li (peer e)).cut - 1)) ∧
  (∀ s e j, (s.li e).up = 2 → (s.li e).backlog = [] → (s.li e).retry.length ≤ 256 → j < (s.li e).retry.length →
    let l := s.li e
    let ack := l.seq - BitVec.ofNat 12 l.retry.length + BitVec.ofNat 12 j
    let rest := l.retry.drop (j + 1)
    exec (.nakReceived e ack) s = .next (s.modLi e fun l =>
      { l with retry := rest, out := l.out ++ rest.map (·.1), replay := BitVec.ofNat 16 (min (l.replay.toNat + rest.length) 0xFFFF) })) ∧
  (∀ s e, fabricEnd e → (s.li e).up = 2 →
    let l := s.li e
    (l.tx < 2 ^ 40 - 2 ^ 24 → exec (.keySwitchMarker e) s = .next s) ∧
    (2 ^ 40 - 2 ^ 24 ≤ l.tx → l.txKey[(!l.ks).toNat]? = some none → ∃ t, exec (.keySwitchMarker e) s = .next t ∧ retrains e t) ∧
    (2 ^ 40 - 2 ^ 24 ≤ l.tx → ∀ k, l.txKey[(!l.ks).toNat]? = some (some k) →
      (256 ≤ l.retry.length → exec (.keySwitchMarker e) s = .next s) ∧
      (l.retry.length < 256 → ∃ t f, exec (.keySwitchMarker e) s = .next t ∧
      (t.li e).ks = !l.ks ∧ (t.li e).txKey[l.ks.toNat]? = some none ∧ (t.li e).out = l.out ++ [f] ∧ hdrType f.hdr = 2 ∧
      (t.li e).seq = l.seq + 1))) ∧
  (∀ s e, (endFailed e s = true ∨ endFailed (peerEnd e) s = true → exec (.retrainDone e) s = .next s) ∧
    (endFailed e s = false → endFailed (peerEnd e) s = false → (s.li e).starts = true →
      exec (.retrainDone e) s = .next (s.modLi e fun l => { l with starts := false, up := 1 }))) ∧
  (∀ s e, e < 32768 → endFailed (peer e) s = false → (s.li e).starts = false → (s.li e).up = 1 → (s.li e).backlog = [] →
    (s.li (peer e)).backlog = [] →
    let out := max (s.li e).txGen (s.li (peer e)).rxGen
    let back := max (s.li (peer e)).txGen (s.li e).rxGen
    ∃ t, exec (.retrainDone e) s = .next t ∧ fresh (s.li e) (t.li e) out back ∧ fresh (s.li (peer e)) (t.li (peer e)) back out ∧
      (t.li e).up = (if (s.li e).lanes = 0 then 0 else 2) ∧ (t.li (peer e)).up = (t.li e).up ∧
      ((s.li e).lanes = 0xFF → (t.li e).width = 0)) ∧
  (∀ s e lane, e < 32768 → (s.li e).up = 2 → (s.li (peer e)).up = 2 → ∃ t, exec (.laneFailure e lane) s = .next t ∧
    (∀ i, i < 8 → (t.li e).lanes.getLsbD i = ((s.li e).lanes.getLsbD i && i != lane)) ∧
    ((t.li e).lanes = 0 → (t.li e).up = 0 ∧ (t.li (peer e)).up = 0) ∧
    ((t.li e).lanes ≠ 0 → (usedLanes (s.li e).lanes (s.li e).width.toNat).testBit lane = false →
      t = s.modLi e fun l => { l with lanes := (t.li e).lanes }) ∧
    ((t.li e).lanes ≠ 0 → (usedLanes (s.li e).lanes (s.li e).width.toNat).testBit lane = true → ∀ x ∈ [e, peer e],
      (t.li x).up = 2 ∧ (t.li x).out = (s.li x).out ∧ (t.li x).cut = (s.li x).out.length ∧
      (t.li x).replay.toNat = min ((s.li x).replay.toNat + ((s.li x).out.filter fun f => sequenced f.hdr).length) 0xFFFF ∧
      (s.li x).width.toNat ≤ (t.li x).width.toNat)) ∧
  (∀ s e, fabricEnd e → let l := s.li e
    let m := s.li (peer e)
    let slot := (!l.ks).toNat
    let g := max l.txGen m.rxGen
    ∃ t, exec (.retiredSlotKeyLoad e) s = .next t ∧
      (l.txKey[slot]? = some none → m.rxKey[slot]? = some none → (∃ k, l.txKey[l.ks.toNat]? = some (some k)) →
        (t.li e).txKey[slot]? = some (some g) ∧ (t.li (peer e)).rxKey[slot]? = some (some g) ∧ (t.li e).txCtr[slot]? = some 0 ∧
        (t.li (peer e)).rxCtr[slot]? = some 0) ∧
      ((∃ k, l.txKey[slot]? = some (some k) ∨ m.rxKey[slot]? = some (some k)) →
        (t.li e).txKey = l.txKey ∧ (t.li (peer e)).rxKey = m.rxKey))

/-- R412, R417, R420, R421, R423, R424, R430, R121: a switch sends a flit to the port of its device, or up, or from a spine to the
leaf of its device; of two that want one port the greater AGE has it and the other is deflected, 64 older; the reply to a combined famo
is split into M and M plus the operand before; a bulkhead sends its heartbeats, a leaf that misses them for 10 µs declares the device
down, in a failed leaf's stead each spine does, and a leaf that hears it again takes that back; a member that is declared down is dead to
its observers; a switch that fails loses what it held, and its links go down. The model's choices: that spines declare the devices of a
failed leaf down, how ports are numbered, and that a leaf notes a heartbeat at its bulkhead's time (log 54); that a deflected flit takes the
lowest free up port, 96 here, which of the 16 links to a switch a notice takes, and that a switch's own flits wait for an output (log 58). -/
def Obligations.SwitchesAndHeartbeats : Prop :=
  (∀ s w (a : Arrival) dev age, w < 408 → empty (s.swi w) → flitFor a.flit dev age → age < 255 →
    let port := if w % 17 < 11 then (if dev / 96 = w % 17 then dev % 96 else 96 + a.up % 96) else dev / 96 * 16 + a.up % 16
    canTake s w port → ∃ t, exec (.switchFlitRoute w [a]) s = .next t ∧ empty (t.swi w) ∧
      (t.swi w).inp = (s.swi w).inp.erase (a.inPort, { hdr := a.flit.hdr, body := a.flit.body }) ∧
      leavesBy s t w port dev age a.flit.body) ∧
  (∀ s w (a b : Arrival) dev x y, w < 408 → empty (s.swi w) → flitFor a.flit dev x → flitFor b.flit dev y → x < 255 → y < x →
    w % 17 = dev / 96 → canTake s w (dev % 96) → canTake s w 96 → (s.li (switchEnd w 96)).hold = false →
    ∃ t, exec (.switchFlitRoute w [b, a]) s = .next t ∧ empty (t.swi w) ∧ leavesBy s t w (dev % 96) dev x a.flit.body ∧
      leavesBy s t w 96 dev (min (y + 64) 255) b.flit.body) ∧
  (∀ s w k (src1 src2 : W32) (tx1 tx2 : BitVec 16) (op1 op2 : W64) cs pa po pt pv (m : W64), (s.swi w).failed = false →
    (s.swi w).splits =
      [{ id := k, members := [(src1, tx1, op1), (src2, tx2, op2)], counts := cs, size := 8, pa := pa, port := po, part := pt, priv := pv }] →
    ∃ t p q, exec (.combinedReplySplit w k m 0) s = .next t ∧ (t.swi w).splits = [] ∧
      (t.swi w).own = (s.swi w).own ++ [(none, p), (none, q)] ∧
      hdrDev p.hdr = src1.toNat % 2 ^ 27 / 2 ^ 17 ∧ bodyAt p.body 4 4 = src1.toNat ∧ bodyAt p.body 0x0A 2 = tx1.toNat ∧
      bodyAt p.body 0x18 8 = m.toNat ∧
      hdrDev q.hdr = src2.toNat % 2 ^ 27 / 2 ^ 17 ∧ bodyAt q.body 4 4 = src2.toNat ∧ bodyAt q.body 0x0A 2 = tx2.toNat ∧
      bodyAt q.body 0x18 8 = (m + op1).toNat) ∧
  (∀ s bh, (s.bu bh).reset = false → ∃ t, exec (.heartbeatSend bh) s = .next t ∧ (t.bu bh).hbCount = (s.bu bh).hbCount + 1 ∧
    ((s.li bh).up = 2 → (s.li bh).tx < 2 ^ 40 - 2 ^ 24 → ∃ f, (t.li bh).out = (s.li bh).out ++ [f] ∧ hdrType f.hdr = 4)) ∧
  (∀ s w port ns, w % 17 < 11 → port < downPorts w →
    let dead := (s.swi w).downDev.contains port
    let Says (v p up : Nat) (t : State) : Prop := (∃ m, m < 16 ∧ (s.li (switchEnd v (p + m))).up ≠ 0) →
      ∃ m f, m < 16 ∧ (s.li (switchEnd v (p + m))).up ≠ 0 ∧ (some (p + m), f) ∈ (t.swi v).own ∧ hdrType f.hdr = 6 ∧
        bodyAt f.body 0 2 = w % 17 * 96 + port ∧ bodyAt f.body 4 1 = up
    ((s.swi w).failed = false → ∃ t, exec (.heartbeatReceive w port ns) s = .next t ∧ Map.get? (t.swi w).hbLast port = some ns ∧
      (t.swi w).downDev.contains port = false ∧ (dead = true → ∀ i, i < 6 → Says w (96 + 16 * i) 1 t)) ∧
    (dead = false → Map.get 0 (s.swi w).hbLast port + 10000 ≤ ns → ∃ t, exec (.heartbeatTimeout w port ns) s = .next t ∧
      (t.swi w).downDev.contains port = true ∧
      ((s.swi w).failed = false → ∀ i, i < 6 → Says w (96 + 16 * i) 0 t) ∧
      ((s.swi w).failed = true → ∀ i j, i < 6 → j < 11 → (s.swi (w / 17 * 17 + 11 + i)).failed = false →
        Says (w / 17 * 17 + 11 + i) (16 * j) 0 t)) ∧
    (ns < Map.get 0 (s.swi w).hbLast port + 10000 → exec (.heartbeatTimeout w port ns) s = .next s)) ∧
  (∀ s w port f b, w < 408 → w % 17 < 11 → port < downPorts w → (s.swi w).failed = false →
    let bh := (w % 17 * 96 + port) * 32 + w / 17
    let e := 32768 + bh
    canArrive s e → (s.li bh).cut = 0 → hdrType f.hdr = 4 →
    ((s.li e).passes true f.hdr).1.opens e ((s.li e).passes true f.hdr).2 f = some b →
    ∃ t, exec (.flitReceive e f) s = .next t ∧ Map.get? (t.swi w).hbLast port = some (s.ns bh) ∧
      (t.swi w).downDev.contains port = false) ∧
  (∀ s bh dev, exec (.memberNotice bh dev true) s = .next s ∧
    (dev ≠ devOfBh bh → ∃ t, exec (.memberNotice bh dev false) s = .next t ∧ (t.bu bh).deadMap.contains dev = true ∧
      ((s.bu bh).deadMap.contains dev = false → ∀ id,
        (∀ q : StoreReq, (id, Flight.store q) ∈ s.flight → (∀ f, (id, f) ∈ s.flight → f = .store q) → q.performed = true → q.res = .ok →
          devOf q.ts = devOfBh bh → bhOfPa q.p.pa = dev * 32 + bh % 32 →
          (id, Flight.store { q with res := .deadPeer q.p.va }) ∈ t.flight) ∧
        ∀ (q : WeevilReq) r, (id, Flight.weevil q) ∈ s.flight → (∀ f, (id, f) ∈ s.flight → f = .weevil q) → q.reply = some r →
          devOfBh (q.via.getD (bhOf q.ts)) = devOfBh bh → bhOfPa q.p.pa = dev * 32 + bh % 32 →
          (id, Flight.weevil { q with reply := some { res := .deadPeer q.p.va, unit := unitOfPa q.p.pa } }) ∈ t.flight))) ∧
  (∀ s w, ∃ t, exec (.switchFailure w) s = .next t ∧ (t.swi w).failed = true ∧ (t.swi w).hold = [] ∧ (t.swi w).splits = [] ∧
    (t.swi w).inp = [] ∧ (t.swi w).own = [] ∧ (t.swi w).comb = [] ∧ t.mem = s.mem ∧
    ∀ port ∈ portsOf w, (t.li (switchEnd w port)).up = 0 ∧ (t.li (peerEnd (switchEnd w port))).up = 0)

/-! ### Host ports -/

/-- R432, R433, R437, R141, R434, R441: HSEM goes to the port that asks while it is free, of two at once to the port other than
LAST, and back; a link that goes down frees it; a mailbox message is queued with the stamp T + H or refused with its status; ARMCTL
arms the record that it names with the status of arming, and a disarm waits for its release; requests for a report are served in
order. That status 5 is judged before the others is the model's choice (log 40). -/
def Obligations.HostPorts : Prop :=
  (∀ s p, (s.po p).up = true →
    let d := s.de (p / 2)
    let other := p / 2 * 2 + (1 - p % 2)
    let takes (q : Nat) (t : State) : State := t.modDe (q / 2) fun d =>
      { d with owner := if q % 2 = 0 then 1 else 2, last := q % 2 = 1, gen := d.gen + 1 }
    (d.owner = 0 → exec (.hsemAcquire p false) s = .next (takes p s)) ∧
    (d.owner ≠ 0 → exec (.hsemAcquire p false) s = .next (portError p s)) ∧
    (d.owner = 0 → (s.po other).up = true →
      let win := if d.last = true then p / 2 * 2 else p / 2 * 2 + 1
      let lose := if d.last = true then p / 2 * 2 + 1 else p / 2 * 2
      exec (.hsemAcquire p true) s = .next (portError lose (takes win s))) ∧
    (holdsHsem s p → exec (.hsemRelease p) s = .next (s.modDe (p / 2) fun d => { d with owner := 0 })) ∧
    (¬ holdsHsem s p → exec (.hsemRelease p) s = .next (portError p s))) ∧
  (∀ s p, (∃ t, exec (.hostLinkDown p) s = .next t ∧ (t.po p).up = false ∧ ¬ holdsHsem t p ∧
      (¬ holdsHsem s p → (t.de (p / 2)).owner = (s.de (p / 2)).owner) ∧ ∀ id pa n, (id, Flight.hostRead p pa n) ∉ t.flight) ∧
    ((s.de (p / 2)).powered = true → (s.bu (anchorOf p)).reset = false →
      exec (.hostLinkUp p) s = .next (s.modPo p fun q => { q with up := true })) ∧
    ((s.de (p / 2)).powered = false ∨ (s.bu (anchorOf p)).reset = true → exec (.hostLinkUp p) s = .next s)) ∧
  (∀ s p, (s.po p).up = true → (s.de (p / 2)).done = true →
    let q := s.po p
    let u := q.target.toNat
    let bh := bhOf u
    (q.mbxBusy = true → exec (.mailboxGo p) s = .next (portError p s)) ∧
    (q.mbxBusy = false → mailStatus s p ≠ 0 → ∃ t, exec (.mailboxGo p) s = .next t ∧ t = s.modPo p (fun _ => t.po p) ∧
      t.po p = { q with mbxStatus := BitVec.ofNat 4 (mailStatus s p) }) ∧
    (2 ^ 27 ≤ u ∨ u % 4 ≠ 0 ∨ q.msg3 ≠ 0 ∨ q.entry.toNat % 4 ≠ 0 → mailStatus s p = 5) ∧
    (∀ r, q.mbxBusy = false → mailStatus s p = 0 → rpMode (s.bu bh) = 0 → hostrxOf s (coreOf u) = some r → s.hasRe r = true → quiet s →
      (s.re r).st = .run → (s.re r).disarming = false → (s.re r).stranded = false → (s.re r).horizon = none →
      ∃ t e k, exec (.mailboxGo p) s = .next t ∧ (t.po p).mbxBusy = false ∧ (t.po p).mbxStatus = 0 ∧
        (t.re r).entries = (s.re r).entries ++ [e] ∧ e.q.tag = (BitVec.ofNat 64 (s.ticks bh + s.boundH bh), k) ∧
        e.q.sender = 0x07FFFFFF ∧ e.q.payload = q.args ∧ e.q.host = q.entry ∧ e.q.port = 0x30 ∧ e.q.flags = 8)) ∧
  (∀ s p v, (s.po p).up = true → (s.de (p / 2)).done = true →
    let q := s.po p
    let rec_ := v.toNat % 2 ^ 12
    let part := v.toNat / 2 ^ 43 % 2 ^ 15
    (¬ holdsHsem s p ∨ q.armBusy = true → exec (.armctlArm p v) s = .next (portError p s) ∧
      exec (.armctlDisarm p v) s = .next (portError p s)) ∧
    (holdsHsem s p → q.armBusy = false → bhsOf s (p / 2) part = [] → ∃ t, exec (.armctlArm p v) s = .next t ∧
      exec (.armctlDisarm p v) s = .next t ∧ t.mem = s.mem ∧ (t.po p).armBusy = false ∧ (t.po p).armStatus = 2 ∧
      (t.po p).armRec.toNat = rec_ ∧ (t.po p).armPart.toNat = part) ∧
    (∀ bh bs, holdsHsem s p → q.armBusy = false → bhsOf s (p / 2) part = bh :: bs →
      (rpMode (s.bu bh) = 0 → armWaits s bh rec_ = false → ∃ t k, exec (.armctlArm p v) s = .next t ∧ (t.po p).armBusy = false ∧
        let o := arm bh rec_ (BitVec.ofNat 64 (s.ticks bh + s.boundH bh), k) 0x07FFFFFF none false
          (stampOf (s.modPo p fun q => { armFields v q with armBusy := true }) (p / 2) bh).1
        (t.po p).armStatus = BitVec.ofNat 4 o.2.1 ∧ (o.2.1 = 0 → (t.po p).armGang = BitVec.ofNat 20 o.2.2) ∧ t.mem = o.1.mem) ∧
      (recordPa s bh rec_ = none → ∃ t, exec (.armctlDisarm p v) s = .next t ∧ (t.po p).armBusy = false ∧ (t.po p).armStatus = 1 ∧
        t.mem = s.mem) ∧
      (∀ g, (recordPa s bh rec_).isSome = true → gangLive s part (v.toNat / 2 ^ 23 % 2 ^ 20) rec_ = some g →
        (∀ r ∈ g.keys, s.hasRe r = true ∧ (s.re r).disarming = false) →
        ∃ t id, exec (.armctlDisarm p v) s = .next t ∧ (t.po p).armBusy = true ∧ (∀ r ∈ g.keys, (t.re r).disarming = true) ∧
          (id, Flight.disarm part (v.toNat / 2 ^ 23 % 2 ^ 20) rec_ none (some p)) ∈ t.flight))) ∧
  (∀ s p, (s.po p).up = true → (s.de (p / 2)).done = true →
    ((s.po p).attBusy = false → ∃ t, exec (.attestRequest p) s = .next t ∧ t.mem = s.mem ∧
      t.po p = { s.po p with attBusy := true, attDone := false, attStatus := 1 } ∧
      (t.de (p / 2)).attQueue = (s.de (p / 2)).attQueue ++ [p]) ∧
    ((s.po p).attBusy = true → exec (.attestRequest p) s = .next (s.modPo p fun q => { q with attStatus := 1 }))) ∧
  (∀ s p rest, (s.de (p / 2)).attQueue = p :: rest → ∃ t, exec (.attestComplete p) s = .next t ∧ (t.po p).attBusy = false ∧
    (t.po p).attDone = true ∧ (t.de (p / 2)).attQueue = rest ∧
    ((s.de (p / 2)).idok = false → (t.po p).attStatus = 2 ∧ (t.po p).rep = (s.po p).rep) ∧
    ((s.de (p / 2)).idok = true → (t.po p).attStatus = 0 ∧ (t.po p).rep.toNat % 2 ^ 1792 = leNat (reportBody s p)))

/-! ### The management space, reset, power and boot -/

/-- R390, R39, R397, R401, R424, R431, R432, R435, R436, R442: a write of the management space by a port that does not hold HSEM, or that
the register's rule refuses, is ignored with MSTAT.VE; otherwise the register takes its value: BHPART only of a rectangle that holds the
bulkhead, with a reset where RST is 1, PCFG only RUN while it runs, a window entry, TRWP, a dead-member entry, the power state; a stop
request holds a reactor between activations and a release ends the stop. That PCFG, while RUN is 1, ignores the whole of a write that
changes another field is the model's choice (log 45). That a write of BHPART with RST = 1 resets whether or not the partition runs, its
rectangle being judged all the same, is inferred (log 42). -/
def Obligations.ManagementWrites : Prop :=
  (∀ s p bh, reaches s p bh → ¬ holdsHsem s p → ∀ v w ix dev cl rid, ix < 64 → cl / 4 = bh →
    ∀ i ∈ [Instr.bhpartWrite p bh v, .pcfgWrite p bh v, .windowTableWrite p bh ix w, .trwpWrite p bh v, .deadMemberClear p bh dev,
        .stopRequest p cl rid, .stopRelease p cl rid, .pwrReqOn p bh, .pwrReqIdle p bh, .pwrReqOff p bh, .bulkheadReset p bh],
      exec i s = .next (portError p s)) ∧
  (∀ s p bh v, reaches s p bh → holdsHsem s p →
    let n := v.toNat
    let inside : Prop := n / 2 ^ 46 % 4 ≤ bh % 32 / 6 ∧ bh % 32 / 6 ≤ n / 2 ^ 46 % 4 + n / 2 ^ 44 % 4 ∧ n / 2 ^ 46 % 4 + n / 2 ^ 44 % 4 ≤ 3 ∧
      n / 2 ^ 41 % 8 ≤ bh % 32 % 6 ∧ bh % 32 % 6 ≤ n / 2 ^ 41 % 8 + n / 2 ^ 38 % 8 ∧ n / 2 ^ 41 % 8 + n / 2 ^ 38 % 8 ≤ 5
    let free : Prop := ∀ q, s.partOf? bh = some q → partStopped s q = true
    (¬ inside → exec (.bhpartWrite p bh v) s = .next (portError p s)) ∧
    (v.getLsbD 0 = true → inside → ((s.bu bh).reset = true → exec (.bhpartWrite p bh v) s = .next s) ∧
      ((s.bu bh).reset = false → ∃ t, exec (.bhpartWrite p bh v) s = .next t ∧ (t.bu bh).reset = true)) ∧
    (v.getLsbD 0 = false → ¬ free ∨ (s.bu bh).reset = true ∨ (s.bu bh).retired = true →
      exec (.bhpartWrite p bh v) s = .next (portError p s)) ∧
    (v.getLsbD 0 = false → inside → free → (s.bu bh).reset = false → (s.bu bh).retired = false → ∃ t, exec (.bhpartWrite p bh v) s = .next t ∧
      (t.bu bh).bhpart.toNat = n / 2 ^ 38 * 2 ^ 38 ∧ t.thr = s.thr)) ∧
  (∀ s p bh v, reaches s p bh → holdsHsem s p →
    let same : Prop := v.toNat % 2 ^ 48 = (s.bu bh).pcfg.toNat % 2 ^ 48
    (20 < v.toNat % 32 ∨ (s.running bh = true ∧ ¬ same) → exec (.pcfgWrite p bh v) s = .next (portError p s)) ∧
    (v.toNat % 32 ≤ 20 → (s.running bh = true → same) → ∃ t, exec (.pcfgWrite p bh v) s = .next t ∧
      (t.bu bh).pcfg.toNat = v.toNat / 2 ^ 63 * 2 ^ 63 + v.toNat % 2 ^ 48 ∧ t.thr = s.thr ∧
      ∀ q, s.partOf? bh = some q → v.getLsbD 63 = true → (∀ e ∈ s.bh, s.partOf? e.1 = some q → s.running e.1 = false) →
        s.running bh = false → (t.pt q).gangCtr = 0)) ∧
  (∀ s p bh, reaches s p bh → holdsHsem s p →
    (∀ ix (w : W128), ix < 64 → (if w.toNat / 2 ^ 84 ≠ 0 ∨ w.toNat / 2 ^ 37 % 2 ^ 8 ≠ 0 ∨ w.toNat % 2 ^ 16 ≠ 0
      then exec (.windowTableWrite p bh ix w) s = .next (portError p s)
      else exec (.windowTableWrite p bh ix w) s = .next (s.modBu bh fun b => { b with windows := Map.set b.windows ix w }))) ∧
    (∀ v, (∀ e ∈ s.flight, ∀ q a, e.2 ≠ .ingress q a) → exec (.trwpWrite p bh v) s = .next (s.modBu bh fun b =>
      { b with trwp := 0, trctl := b.trctl &&& ~~~(1#64 <<< 61) })) ∧
    (∀ dev, exec (.deadMemberClear p bh dev) s = .next (s.modBu bh fun b => { b with deadMap := b.deadMap.filter (· != dev) })) ∧
    (∀ r i, (r, i) ∈ [(0#2, Instr.pwrReqOn p bh), (1#2, .pwrReqIdle p bh), (2#2, .pwrReqOff p bh)] →
      (r ≠ 0 → (s.bu bh).bhpart.getLsbD 63 = true → exec i s = .next (portError p s)) ∧
      (r = 0 ∨ (s.bu bh).bhpart.getLsbD 63 = false → (s.bu bh).pwrSt ≠ 2 ∨ r = 2 →
        exec i s = .next (s.modBu bh fun b => { b with pwrReq := r, pwrSt := r })))) ∧
  (∀ s p cl (rid : BitVec 16), reaches s p (cl / 4) → holdsHsem s p → quiet s →
    let r := cl * 65536 + rid.toNat
    (s.hasRe r = true → (s.re r).st = .run → ∃ t, exec (.stopRequest p cl rid) s = .next t ∧
      t.re r = (if (s.re r).stopWant then s.re r else { s.re r with stopWant := true, stopWhy := 1 }) ∧
        (t.cl cl).stopreq.toNat = rid.toNat ∧ t.thr = s.thr) ∧
    (s.hasRe r = true → (s.re r).st = .run → ∃ t, exec (.stopRelease p cl rid) s = .next t ∧
      t.re r = { s.re r with stopWant := false, kept := false } ∧ (t.cl cl).stopreq.toNat = 65536 + rid.toNat ∧ t.thr = s.thr) ∧
    (s.hasRe r = true → (s.re r).st = .stop → (s.re r).disarming = false → (s.re r).stranded = false → (s.re r).started = true →
      (s.re r).entries = [] → (s.re r).requeued = [] → (s.co (s.re r).core).isSealed = false →
      ∃ t, exec (.stopRelease p cl rid) s = .next t ∧ (t.re r).st = .idle ∧ (t.re r).stopWant = false ∧ t.thr = s.thr)) ∧
  (∀ s p off v, (s.po p).up = true → (s.de (p / 2)).done = true →
    (off % 8 ≠ 0 ∨ 0x4000000 ≤ off → exec (.mgmtRegisterWrite p off v) s = .next s) ∧
    (holdsHsem s p → exec (.mgmtRegisterWrite p 0x10 v) s = .next (s.modDe (p / 2) fun d =>
      { d with pcap := v.extractLsb' 0 16, lowered := min (v.toNat % 2 ^ 16) 9000 < d.pwrmeas.toNat })) ∧
    (¬ holdsHsem s p → exec (.mgmtRegisterWrite p 0x10 v) s = .next (portError p s)) ∧
    (∀ b cl n, holdsHsem s p → b < 24 → cl < 4 → n < 256 →
      let bh := p / 2 * 32 + b
      let block := 0x1000000 + 0x200000 * b
      let cblock := block + 0x100000 + 0x40000 * cl
      (s.running bh = false → exec (.mgmtRegisterWrite p (block + 0x10) v) s = .next (s.modBu bh fun x =>
        { x with proot := (v.extractLsb' 4 48).setWidth 64 <<< 4 })) ∧
      (s.running bh = true → exec (.mgmtRegisterWrite p (block + 0x10) v) s = .next (portError p s)) ∧
      (v.toNat / 2 ^ 50 = 0 → exec (.mgmtRegisterWrite p (cblock + 0x1000 + 8 * n) v) s = .next (s.modCl (bh * 4 + cl) fun c =>
        { c with pairs := Map.set c.pairs n v }))))

/-- R394 to R396, R438 to R440, R442, R443, R1: a bulkhead's reset ends its activations and its reactors, and when it ends its scratchpads
read 0, HBM stands and its thread sets and cores are new; a bulkhead that trips passes through such a reset and is OFF; temperature and
power are compared with their limits; a module that is switched on boots the copy of its image that verifies, with a code where none does;
a module's reset loses all its state, the partitions that lie on it alone with it. What a bulkhead's reset keeps beside HBM, and that the
ROM of bulkhead 0 may fail to lead, are the model's choice (logs 42, 44), and so is that HBM reads 0 after a module's reset (log 74);
POWER is a free value (log 87). -/
def Obligations.ResetsAndBoot : Prop :=
  (∀ s p bh, reaches s p bh → holdsHsem s p →
    ((s.bu bh).reset = true → exec (.bulkheadReset p bh) s = .next s) ∧
    ((s.bu bh).reset = false → ∃ t, exec (.bulkheadReset p bh) s = .next t ∧ (t.bu bh).reset = true ∧
      (∀ r, bhOfReac r = bh → t.hasRe r = false) ∧ (∀ u, bhOf u = bh → (t.th u).act = none) ∧
      ∀ q, anchorOf q = bh → (t.po q).up = false)) ∧
  (∀ s bh, quiet s → (s.bu bh).reset = true → (s.bu bh).pwrSt ≠ 2 → ∃ t, exec (.bulkheadResetEnd bh) s = .next t ∧
    (t.bu bh).reset = false ∧ (∀ a, Safety.byteAt t a = if isSp a = true ∧ bhOfPa a = bh then 0 else Safety.byteAt s a) ∧
    (∀ u, bhOf u = bh → t.th u = {}) ∧ (∀ u, bhOf u ≠ bh → t.th u = s.th u) ∧
    ∀ c, bhOfCore c = bh → t.co c = { retired := (t.co c).retired }) ∧
  (∀ s bh temp, (temp.toNat < 115 → exec (.thermalThrottle bh temp) s = .next (s.draw.2.modBu bh fun b =>
      { b with temp := temp, thr := 105 ≤ temp.toNat, power := s.draw.1.extractLsb' 0 16 })) ∧
    (temp.toNat < 115 → exec (.thermalTrip bh temp) s = .next s) ∧
    (115 ≤ temp.toNat → ∃ t, exec (.thermalTrip bh temp) s = .next t ∧ exec (.thermalThrottle bh temp) s = .next t ∧
      (t.bu bh).trip = true ∧ (t.bu bh).temp = temp ∧
      (t.bu bh).pwrSt = 2 ∧ ((s.bu bh).pwrSt ≠ 2 → (t.bu bh).reset = false ∧ (t.bu bh).bhpart = 0 ∧
        (∀ u, bhOf u = bh → (t.th u).act = none) ∧
        ((s.bu bh).reset = false → ∀ r, bhOfReac r = bh → t.hasRe r = false)))) ∧
  (∀ s dev w, ∀ i ∈ [Instr.powerCapExceeded dev w, .powerWithinCap dev w], exec i s = .next (s.modDe dev fun d =>
    { d with pwrmeas := w, lowered := min d.pcap.toNat 9000 < w.toNat })) ∧
  (∀ s dev a b, dev < 1024 → (s.de dev).powered = false → ∃ t, exec (.modulePowerOn dev a b) s = .next t ∧
    (t.de dev).powered = true ∧ (t.de dev).flash0 = a ∧ (t.de dev).flash1 = b ∧ (t.po (2 * dev)).up = true ∧
    (t.po (2 * dev + 1)).up = true ∧ t.mem = s.mem) ∧
  (∀ s dev, (s.de dev).powered = true → (s.de dev).code = 0 →
    let d := s.de dev
    (d.lead = 0 → d.leadStep < 4 → ∃ t, exec (.bootLeadTimeout dev) s = .next t ∧ (t.de dev).lead = 23 ∧
      match chooseCopy d.flash0 d.flash1 with
      | none => (t.de dev).code = 1
      | some (second, img) =>
        let retires (b : Nat) : Bool := Config.repairBulkhead (imgSection img 1) b
        let outside : Prop := ∃ i, i < 4 ∧ imgLen img ≤ imgWord img (0x130 + 4 * i)
        (outside → (t.de dev).code = 2) ∧
        (¬ outside → (retires 0 = true ∧ retires 23 = true → (t.de dev).code = 3) ∧
          (retires 0 = false ∨ retires 23 = false → (t.de dev).leadStep = 4 ∧ (t.de dev).copy = second ∧ (t.de dev).image = img ∧
            (t.de dev).imgver = BitVec.ofNat 16 (imgVersion img) ∧ ∀ b, b < 24 → (t.bu (dev * 32 + b)).retired = retires b))) ∧
    (dev < 1024 → d.leadStep = 4 → d.done = false → ∃ t, exec (.bootDone dev) s = .next t ∧ (t.de dev).done = true ∧
      ∀ b, b < 24 → (s.bu (dev * 32 + b)).retired = false →
        (t.li (dev * 32 + b)).up = if (s.li (dev * 32 + b)).lanes = 0 then 0 else 2)) ∧
  (∀ s dev, ∃ t, exec (.moduleReset dev) s = .next t ∧ (∀ r, devOfBh (bhOfReac r) = dev → t.hasRe r = false) ∧
    t.de dev = {} ∧ (∀ b, devOfBh b = dev → t.bu b = {}) ∧ (∀ u, devOf u = dev → t.th u = {}) ∧
    (∀ a, a / 2 ^ 42 = dev → Safety.byteAt t a = 0) ∧
    ((∀ e ∈ s.flight, ∀ r dst ts d, e.2 ≠ .move r dst ts d) →
      (∀ a, a / 2 ^ 42 ≠ dev → Safety.byteAt t a = Safety.byteAt s a) ∧ (∀ u, devOf u ≠ dev → t.th u = s.th u) ∧
      (∀ d, d ≠ dev → t.de d = { s.de d with moved := (s.de d).moved.filter fun (m : Nat × Nat) => devOfBh (bhOfReac m.2) != dev }) ∧
      ∀ q, t.pt q = if partOnly s dev q = true then {} else { s.pt q with gangs := (s.pt q).gangs.map fun (g : Gang) =>
        { g with keys := g.keys.map fun k => if devOfBh (bhOfReac k) = dev then lostKey else k } }))

/-! ### Decoding, one step, memory and reset -/

/-- R146 to R166: an instruction whose fields pass the decode checks is what its words decode to, whatever words follow; and words
that decode to an instruction are those of that instruction, which passes the checks. So every field of every form keeps its bits. -/
def Obligations.DecodeEncode : Prop :=
  (∀ (i : Instr) rest, i.toRaw.isSome = true → i.wellFormed = true → decodeWords (encode i ++ rest) = some (.ok i)) ∧
  ∀ (ws : List W32) i, decodeWords ws = some (.ok i) → i.wellFormed = true ∧ encode i = ws.take (lengthWords (ws.headD 0)) ∧
    (encode i).length = lengthWords (ws.headD 0)

/-- R149, R151 to R158, R164, R165: words written out from the encoding tables decode to the instructions that they stand for; words
that fail a check do not decode, with the number of the lowest check that fails; and a thread set that fetches such words takes the
reserved-code trap, TVAL holding word 0 and the check, in a precise way, once the watchpoints have seen the fetch (log 97). -/
def Obligations.WordsDecode : Prop :=
  decodeWords [0x28818548] = some (.ok (.idiv ⟨false, 2⟩ ⟨10, 8, 6, none⟩)) ∧
  decodeWords [0x000400DC] = some (.ok (.call ⟨false, 7⟩ 16)) ∧
  decodeWords [0x03E0015C] = some (.ok (.ret ⟨false, 7⟩ 62)) ∧
  decodeWords [0x1E5034DE, 0x1E701E60, 0x00000000] = some (.ok (.thaw ⟨false, 7⟩
    { var := 0, d := ⟨0, false, 15, 80⟩, a := ⟨0, false, 15, 96⟩, b := ⟨0, false, 15, 112⟩, ty := 0, mod := 0, c := ⟨0, false, 0, 0⟩,
      lit := none })) ∧
  decodeWords [0x00003FDC] = some (.reserved 1) ∧
  ∀ s u ws c, unitOk u = true → canIssue s u = true →
    let s0 := { s with cur := u }
    let h := codeHits u ws.length (s.th u).pc s0
    atExit s0 u = false → enterBlock u s0 = s0 → (s.th u).repAct = false → (h.th u).repAct = false → settled h →
    State.codeWords s u (s.th u).pc = .ok ws → decodeWords ws = some (.reserved c) →
    ∃ t, issue u s = .next t ∧ trapped u 0x01 (BitVec.ofNat 64 ((ws.headD 0).toNat + c * 2 ^ 32)) h t

/-- R164, R356: where the environment asks for a turn of a core, the thread set whose turn it is, the first that can issue after the one
that issued last in the cyclic order, takes it; where its program counter holds the words of a well-formed instruction that nothing keeps
waiting, outside a repetition and a checked block, the step is the instruction's own meaning, with the core's cycle counter one higher (but
for a wrctr of it), what follows a retirement, the turn passed on and the core's other thread sets standing by, the freezes that waited,
the trace records that waited, and what the step puts on the fabric; with no counter counting retired instructions, no load in flight and
no move of its reactor, what follows is the note that the core has issued. One that waits counts its stall, and the next in order takes
the cycle. The model's choices: that each issue counts one cycle (log 46), which turns use the cycle and how cores take turns (log 53),
when trace records are written (log 79), and that the watchpoints see a fetch as the instruction issues (log 97). -/
def Obligations.StepRunsDecoded : Prop :=
  ∀ s u us v rest ws x i, s.agenda = .issue v :: rest → unitOk v = true →
    let c := coreOf v
    let a := { s with agenda := rest }
    let s0 := { setIssued c false a with cur := u }
    let h := codeHits u ws.length (s0.th u).pc s0
    let ends (t : State) : State := wireOut s (traceOut (endFreezes (setIssued c ((a.co c).issued || (t.co c).issued) t)))
    coreSets a c = u :: us → unitOk u = true → (s0.th u).repAct = false → (h.th u).repAct = false →
    (s0.th u).blk = none → (s0.act u).sigMode = 0 → State.codeWords s0 u (s0.th u).pc = .ok ws → decodeWords ws = some (.ok i) →
    Raw.ofWords ws = some x → canIssue s0 u = true → atExit s0 u = false →
    (∀ t, heldBy h u x = none → canIssue h u = true → (h.th u).blk = none → exec i h = .next t →
      let t' := stopAfter u x (h.th u) (after u ws x x h t)
      used u h t' = true → let w := if setsCycle u x h = true then t' else cycle (coreOf u) t'
      used u s0 w = true → step s = .next (ends (passTurn c
        { ((us.foldl standsBy w).modCo c fun k => { k with lastTs := tsOf u }) with cur := u }))) ∧
    (∀ k, heldBy h u x = some k → heldBy s0 u x = some k → used u s0 (stall u k 1 h) = false → used u s0 (stall u k 1 s0) = false →
      ∀ t, coreTurn c us (stall u k 1 s0) = .next t → step s = .next (ends t)) ∧
    (∀ t, (∀ e ∈ (h.co (coreOf u)).cfg, e.2.evt ≠ 1 ∧ e.2.evt ≠ 2) → h.loading u = false → (t.th u).blk = none →
      after u ws x x h t = if retired (h.th u) (t.th u) x (guarded (h.th u).r x) = true
        then t.modCo (coreOf u) (fun k => { k with issued := true }) else t) ∧
    ∀ t, (t.re (t.act u).reactor).st ≠ .move → stopAfter u x (h.th u) t = t

/-- R4: no step faults or refuses while every thread set that the state knows, and every one that the environment asks for, has the
coordinate of a unit: each instruction and each step of another agent has a next state. That a step of the table which is not due leaves
the state as it is, is the model's choice (log 14). -/
def Obligations.StepsGoOn : Prop :=
  (∀ s, Safety.knownUnits s → Safety.asksForUnits s → Safety.goesOn s) ∧ ∀ i s, ∃ t, exec i s = .next t

/-- R7, R54: every step keeps memory in its canonical form, so that equal memories are equal data. -/
def Obligations.MemoryFormIsKept : Prop := ∀ s t, Safety.memOk s → step s = .next t → Safety.memOk t

/-- R10, R136, R157, R186, R288, R431, R433 (Reset columns): right after reset memory is in its form and lists nothing, no thread set runs
and nothing is in flight, every guard reads 0 but g7, which reads 1, every mask 0 but k7, every accumulator mask selects all, HWMASK is
all ones, PCAP 9000 W, LAST 1, and counters, gang counters and trap registers read 0. That HBM reads 0 before it is written, and the
values named here of registers without a Reset column (g0 to g6, k0 to k6, c0 to c7, TVAL, TEPC, the accumulators), are the model's choice
(logs 4, 10). -/
def Obligations.ResetState : Prop :=
  Safety.memOk State.reset ∧ (∀ a, Safety.byteAt State.reset a = 0) ∧ State.reset.flight = [] ∧
  (∀ u, let t := State.reset.th u
    t.mode = .free ∧ t.act = none ∧ t.ctr = 0 ∧ t.repst = 0 ∧ t.r.fpctl = 0 ∧ t.tcause = 0 ∧ t.tval = 0 ∧ t.tepc = 0 ∧ t.tstat = 0 ∧
    t.ve = false ∧ (∀ n, n < 8 → t.r.g n = (n == 7) ∧ t.r.k n = if n = 7 then 0xFF else 0) ∧
    ∀ n, n < 4 → (t.ac n).rows = 0xFFFFFFFF ∧ (t.ac n).cols = 0xFFFFFFFF ∧ (t.ac n).poison = 0) ∧
  (∀ c n, Map.get {} (State.reset.co c).ctrs n = {} ∧ State.reset.bfmt c n = 0) ∧
  (∀ b, (State.reset.bu b).bhpart = 0 ∧ (State.reset.bu b).pcfg = 0 ∧ (State.reset.bu b).trctl = 0 ∧ (State.reset.bu b).rpctl = 0) ∧
  (∀ d, (State.reset.de d).owner = 0 ∧ (State.reset.de d).last = true ∧ (State.reset.de d).pcap = 9000) ∧
  (∀ p, (State.reset.po p).hwmask = 0xFFFFFF ∧ (State.reset.po p).mbxBusy = false) ∧
  ∀ p, (State.reset.pt p).gangCtr = 0

end Statements
end

