-- ==== Sys2Proof/Laws/Fields.lean ====
section
/-! SUPPORT. Laws/Fields.lean: the fields of every form read back from the words that they are laid out in. -/

namespace Sys2Proof

/-- Of two fields laid side by side: the low one, the high one, and a part of the low one. -/
theorem field_low {m n : Nat} (a : BitVec m) (b : BitVec n) : (a ++ b).extractLsb' 0 n = b := by
  apply BitVec.eq_of_getLsbD_eq
  intro i hi
  simp [BitVec.getLsbD_append, hi]
theorem field_high {m n : Nat} (a : BitVec m) (b : BitVec n) : (a ++ b).extractLsb' n m = a := by
  apply BitVec.eq_of_getLsbD_eq
  intro i hi
  simp [BitVec.getLsbD_append, hi]
theorem field_in_low {m n : Nat} (a : BitVec m) (b : BitVec n) (s k : Nat) (h : s + k ≤ n) :
    (a ++ b).extractLsb' s k = b.extractLsb' s k := by
  apply BitVec.eq_of_getLsbD_eq
  intro i hi
  have : s + i < n := by omega
  simp [BitVec.getLsbD_append, hi, this]
/-- The same of a single bit. -/
theorem bit_high {n : Nat} (a : Bool) (b : BitVec n) : (BitVec.ofBool a ++ b).getLsbD n = a := by
  rw [BitVec.getLsbD_append]
  cases a <;> simp
theorem bit_in_low {m n : Nat} (a : BitVec m) (b : BitVec n) (i : Nat) (h : i < n) : (a ++ b).getLsbD i = b.getLsbD i := by
  rw [BitVec.getLsbD_append]
  simp [h]

@[simp] theorem Slot.ofBits_bits (s : Slot) : Slot.ofBits s.bits = s := by
  obtain ⟨f, t, w, x⟩ := s
  have h1 : (Slot.bits ⟨f, t, w, x⟩).extractLsb' 14 2 = f := field_high ..
  have h2 : (Slot.bits ⟨f, t, w, x⟩).getLsbD 13 = t := (bit_in_low _ _ 13 (by decide)).trans (bit_high ..)
  have h3 : (Slot.bits ⟨f, t, w, x⟩).extractLsb' 9 4 = w :=
    (field_in_low _ _ 9 4 (by decide)).trans ((field_in_low _ _ 9 4 (by decide)).trans (field_high ..))
  have h4 : (Slot.bits ⟨f, t, w, x⟩).extractLsb' 0 9 = x :=
    (field_in_low _ _ 0 9 (by decide)).trans ((field_in_low _ _ 0 9 (by decide)).trans (field_low ..))
  simp only [Slot.ofBits, h1, h2, h3, h4]

/-- The three fields of a base form. -/
theorem hiOf_b (b a d : BitVec 6) : (hiOf b a d).extractLsb' 12 6 = b := field_high ..
theorem hiOf_a (b a d : BitVec 6) : (hiOf b a d).extractLsb' 6 6 = a := (field_in_low _ _ 6 6 (by decide)).trans (field_high ..)
theorem hiOf_d (b a d : BitVec 6) : (hiOf b a d).extractLsb' 0 6 = d := (field_in_low _ _ 0 6 (by decide)).trans (field_low ..)

@[simp] theorem B3.ofHi_hi (o : B3) : B3.ofHi o.hi o.lit = o := by
  obtain ⟨b, a, d, l⟩ := o
  simp [B3.ofHi, B3.hi, hiOf_b, hiOf_a, hiOf_d]
@[simp] theorem BU.ofHi_hi (o : BU) : BU.ofHi o.hi = o := by
  obtain ⟨a, d⟩ := o
  simp [BU.ofHi, BU.hi, hiOf_a, hiOf_d]
@[simp] theorem BI.ofHi_hi (o : BI) : BI.ofHi o.hi = o := by
  obtain ⟨i, d⟩ := o
  have h1 : (BI.hi ⟨i, d⟩).extractLsb' 6 12 = i := field_high ..
  have h2 : (BI.hi ⟨i, d⟩).extractLsb' 0 6 = d := field_low ..
  simp [BI.ofHi, h1, h2]
@[simp] theorem BC.ofHi_hi (o : BC) : BC.ofHi o.hi o.lit = o := by
  obtain ⟨b, a, q, p, l⟩ := o
  have h1 : (hiOf b a (q ++ p)).extractLsb' 3 3 = q :=
    (field_in_low _ _ 3 3 (by decide)).trans ((field_in_low _ _ 3 3 (by decide)).trans (field_high ..))
  have h2 : (hiOf b a (q ++ p)).extractLsb' 0 3 = p :=
    (field_in_low _ _ 0 3 (by decide)).trans ((field_in_low _ _ 0 3 (by decide)).trans (field_low ..))
  simp [BC.ofHi, BC.hi, hiOf_b, hiOf_a, h1, h2]

@[simp] theorem XA.ofWords_w2 (x : XA) : XA.ofWords x.var x.d x.a x.b x.w2 x.lit = x := by
  obtain ⟨v, d, a, b, ty, mo, c, l⟩ := x
  have h1 : (XA.w2 ⟨v, d, a, b, ty, mo, c, l⟩).extractLsb' 28 4 = ty := field_high ..
  have h2 : (XA.w2 ⟨v, d, a, b, ty, mo, c, l⟩).extractLsb' 16 12 = mo := (field_in_low _ _ 16 12 (by decide)).trans (field_high ..)
  have h3 : (XA.w2 ⟨v, d, a, b, ty, mo, c, l⟩).extractLsb' 0 16 = c.bits := (field_in_low _ _ 0 16 (by decide)).trans (field_low ..)
  simp [XA.ofWords, h1, h2, h3]

@[simp] theorem XM.ofWords_w2 (x : XM) : XM.ofWords x.var x.d x.a x.b x.w2 x.lit = x := by
  obtain ⟨v, d, a, b, ty, o, z, op, sc, od, c, l⟩ := x
  let w := XM.w2 ⟨v, d, a, b, ty, o, z, op, sc, od, c, l⟩
  have h1 : w.extractLsb' 28 4 = ty := field_high ..
  have h2 : w.extractLsb' 16 12 = o := (field_in_low _ _ 16 12 (by decide)).trans (field_high ..)
  have h3 : w.extractLsb' 12 4 = z :=
    (field_in_low _ _ 12 4 (by decide)).trans ((field_in_low _ _ 12 4 (by decide)).trans (field_high ..))
  have h4 : w.extractLsb' 8 4 = op := (field_in_low _ _ 8 4 (by decide)).trans ((field_in_low _ _ 8 4 (by decide)).trans
    ((field_in_low _ _ 8 4 (by decide)).trans (field_high ..)))
  have h5 : w.extractLsb' 5 3 = sc := (field_in_low _ _ 5 3 (by decide)).trans ((field_in_low _ _ 5 3 (by decide)).trans
    ((field_in_low _ _ 5 3 (by decide)).trans ((field_in_low _ _ 5 3 (by decide)).trans (field_high ..))))
  have h6 : w.extractLsb' 3 2 = od := (field_in_low _ _ 3 2 (by decide)).trans ((field_in_low _ _ 3 2 (by decide)).trans
    ((field_in_low _ _ 3 2 (by decide)).trans ((field_in_low _ _ 3 2 (by decide)).trans ((field_in_low _ _ 3 2 (by decide)).trans
      (field_high ..)))))
  have h7 : w.extractLsb' 0 3 = c := (field_in_low _ _ 0 3 (by decide)).trans ((field_in_low _ _ 0 3 (by decide)).trans
    ((field_in_low _ _ 0 3 (by decide)).trans ((field_in_low _ _ 0 3 (by decide)).trans ((field_in_low _ _ 0 3 (by decide)).trans
      (field_low ..)))))
  simp [XM.ofWords, show XM.w2 ⟨v, d, a, b, ty, o, z, op, sc, od, c, l⟩ = w from rfl, h1, h2, h3, h4, h5, h6, h7]

@[simp] theorem XT.ofWords_w2 (x : XT) : XT.ofWords x.var x.d x.a x.b x.w2 x.lit = x := by
  obtain ⟨v, d, a, b, mb, ma, ms, zf, k, ct, tr, c, bt, at_, l⟩ := x
  let w := XT.w2 ⟨v, d, a, b, mb, ma, ms, zf, k, ct, tr, c, bt, at_, l⟩
  have h0 : w.getLsbD 31 = mb := bit_high ..
  have h1 : w.getLsbD 30 = ma := (bit_in_low _ _ 30 (by decide)).trans (bit_high ..)
  have h2 : w.getLsbD 29 = ms := (bit_in_low _ _ 29 (by decide)).trans ((bit_in_low _ _ 29 (by decide)).trans (bit_high ..))
  have h3 : w.getLsbD 28 = zf := (bit_in_low _ _ 28 (by decide)).trans ((bit_in_low _ _ 28 (by decide)).trans ((bit_in_low _ _ 28 (by decide)).trans (bit_high ..)))
  have h4 : w.extractLsb' 16 12 = k := (field_in_low _ _ 16 12 (by decide)).trans ((field_in_low _ _ 16 12 (by decide)).trans ((field_in_low _ _ 16 12 (by decide)).trans ((field_in_low _ _ 16 12 (by decide)).trans (field_high ..))))
  have h5 : w.extractLsb' 12 4 = ct := (field_in_low _ _ 12 4 (by decide)).trans ((field_in_low _ _ 12 4 (by decide)).trans ((field_in_low _ _ 12 4 (by decide)).trans ((field_in_low _ _ 12 4 (by decide)).trans ((field_in_low _ _ 12 4 (by decide)).trans (field_high ..)))))
  have h6 : w.getLsbD 11 = tr := (bit_in_low _ _ 11 (by decide)).trans ((bit_in_low _ _ 11 (by decide)).trans ((bit_in_low _ _ 11 (by decide)).trans ((bit_in_low _ _ 11 (by decide)).trans ((bit_in_low _ _ 11 (by decide)).trans ((bit_in_low _ _ 11 (by decide)).trans (bit_high ..))))))
  have h7 : w.extractLsb' 8 3 = c := (field_in_low _ _ 8 3 (by decide)).trans ((field_in_low _ _ 8 3 (by decide)).trans ((field_in_low _ _ 8 3 (by decide)).trans ((field_in_low _ _ 8 3 (by decide)).trans ((field_in_low _ _ 8 3 (by decide)).trans ((field_in_low _ _ 8 3 (by decide)).trans ((field_in_low _ _ 8 3 (by decide)).trans (field_high ..)))))))
  have h8 : w.extractLsb' 4 4 = bt := (field_in_low _ _ 4 4 (by decide)).trans ((field_in_low _ _ 4 4 (by decide)).trans ((field_in_low _ _ 4 4 (by decide)).trans ((field_in_low _ _ 4 4 (by decide)).trans ((field_in_low _ _ 4 4 (by decide)).trans ((field_in_low _ _ 4 4 (by decide)).trans ((field_in_low _ _ 4 4 (by decide)).trans ((field_in_low _ _ 4 4 (by decide)).trans (field_high ..))))))))
  have h9 : w.extractLsb' 0 4 = at_ := (field_in_low _ _ 0 4 (by decide)).trans ((field_in_low _ _ 0 4 (by decide)).trans ((field_in_low _ _ 0 4 (by decide)).trans ((field_in_low _ _ 0 4 (by decide)).trans ((field_in_low _ _ 0 4 (by decide)).trans ((field_in_low _ _ 0 4 (by decide)).trans ((field_in_low _ _ 0 4 (by decide)).trans ((field_in_low _ _ 0 4 (by decide)).trans (field_low ..))))))))
  simp only [XT.ofWords, show XT.w2 ⟨v, d, a, b, mb, ma, ms, zf, k, ct, tr, c, bt, at_, l⟩ = w from rfl, h0, h1, h2, h3, h4, h5, h6, h7, h8, h9]

end Sys2Proof
end

