-- ==== Sys2Proof/Laws/Map.lean ====
section
/-! SUPPORT. Laws/Map.lean: reading a table after setting or dropping a key. -/

namespace Sys2Proof

variable {α : Type}

@[simp] theorem Map.get_nil (d : α) (i : Nat) : Map.get d [] i = d := rfl
@[simp] theorem Map.get?_nil (i : Nat) : Map.get? ([] : Map α) i = none := rfl

theorem Map.get_set (d : α) (m : Map α) (i j : Nat) (x : α) :
    Map.get d (Map.set m i x) j = if j = i then x else Map.get d m j := by
  induction m with
  | nil => rfl
  | cons e m ih =>
    obtain ⟨k, v⟩ := e
    simp only [Map.set]
    split
    · rfl
    · split
      · subst_vars
        simp only [Map.get]
        split <;> rfl
      · simp only [Map.get, ih]
        split <;> split <;> first | rfl | omega

@[simp] theorem Map.get_set_same (d : α) (m : Map α) (i : Nat) (x : α) : Map.get d (Map.set m i x) i = x := by
  rw [Map.get_set, if_pos rfl]

theorem Map.get_set_other (d : α) {i j : Nat} (h : j ≠ i) (m : Map α) (x : α) :
    Map.get d (Map.set m i x) j = Map.get d m j := by
  rw [Map.get_set, if_neg h]

theorem Map.get?_set (m : Map α) (i j : Nat) (x : α) :
    Map.get? (Map.set m i x) j = if j = i then some x else Map.get? m j := by
  induction m with
  | nil => rfl
  | cons e m ih =>
    obtain ⟨k, v⟩ := e
    simp only [Map.set]
    split
    · rfl
    · split
      · subst_vars
        simp only [Map.get?]
        split <;> rfl
      · simp only [Map.get?, ih]
        split <;> split <;> first | rfl | omega

/-- Setting a key twice leaves the second value. -/
theorem Map.set_set (m : Map α) (i : Nat) (x y : α) : Map.set (Map.set m i x) i y = Map.set m i y := by
  induction m with
  | nil => simp [Map.set]
  | cons e m ih =>
    obtain ⟨k, v⟩ := e
    simp only [Map.set]
    split
    · simp [Map.set]
    · split
      · simp [Map.set]
      · rename_i h1 h2
        simp [Map.set, h1, h2, ih]

/-- A dropped key reads as the reset value; every other key reads as before. -/
theorem Map.get_del (d : α) (m : Map α) (i j : Nat) : Map.get d (Map.del m i) j = if j = i then d else Map.get d m j := by
  induction m with
  | nil => simp [Map.del]
  | cons e m ih =>
    obtain ⟨k, v⟩ := e
    simp only [Map.del, List.filter_cons] at *
    by_cases h : k = i
    · subst h
      simp only [bne_self_eq_false, Bool.false_eq_true, if_false, ih, Map.get]
      split <;> rfl
    · simp only [bne_iff_ne, ne_eq, h, not_false_eq_true, if_true, Map.get, ih]
      split <;> split <;> first | rfl | omega

end Sys2Proof
end

