-- ==== Sys2Proof/Laws/State.lean ====
section
/-! SUPPORT. Laws/State.lean: what each update of the state leaves in each field, one lemma per field per update. -/

namespace Sys2Proof.Machine

set_option Elab.async false

/-! ### modTh -/

@[simp] theorem State.modTh_mem (s : State) (u : Nat) (f : Thread → Thread) : (s.modTh u f).mem = s.mem := rfl
@[simp] theorem State.modTh_poison (s : State) (u : Nat) (f : Thread → Thread) : (s.modTh u f).poison = s.poison := rfl
@[simp] theorem State.modTh_flips (s : State) (u : Nat) (f : Thread → Thread) : (s.modTh u f).flips = s.flips := rfl
@[simp] theorem State.modTh_elided (s : State) (u : Nat) (f : Thread → Thread) : (s.modTh u f).elided = s.elided := rfl
@[simp] theorem State.modTh_lostMeta (s : State) (u : Nat) (f : Thread → Thread) : (s.modTh u f).lostMeta = s.lostMeta := rfl
@[simp] theorem State.modTh_cached (s : State) (u : Nat) (f : Thread → Thread) : (s.modTh u f).cached = s.cached := rfl
@[simp] theorem State.modTh_thr (s : State) (u : Nat) (f : Thread → Thread) : (s.modTh u f).thr = Map.set s.thr u (f (s.th u)) := rfl
@[simp] theorem State.modTh_core (s : State) (u : Nat) (f : Thread → Thread) : (s.modTh u f).core = s.core := rfl
@[simp] theorem State.modTh_clu (s : State) (u : Nat) (f : Thread → Thread) : (s.modTh u f).clu = s.clu := rfl
@[simp] theorem State.modTh_reac (s : State) (u : Nat) (f : Thread → Thread) : (s.modTh u f).reac = s.reac := rfl
@[simp] theorem State.modTh_bh (s : State) (u : Nat) (f : Thread → Thread) : (s.modTh u f).bh = s.bh := rfl
@[simp] theorem State.modTh_dev (s : State) (u : Nat) (f : Thread → Thread) : (s.modTh u f).dev = s.dev := rfl
@[simp] theorem State.modTh_part (s : State) (u : Nat) (f : Thread → Thread) : (s.modTh u f).part = s.part := rfl
@[simp] theorem State.modTh_link (s : State) (u : Nat) (f : Thread → Thread) : (s.modTh u f).link = s.link := rfl
@[simp] theorem State.modTh_sw (s : State) (u : Nat) (f : Thread → Thread) : (s.modTh u f).sw = s.sw := rfl
@[simp] theorem State.modTh_flight (s : State) (u : Nat) (f : Thread → Thread) : (s.modTh u f).flight = s.flight := rfl
@[simp] theorem State.modTh_nextId (s : State) (u : Nat) (f : Thread → Thread) : (s.modTh u f).nextId = s.nextId := rfl
@[simp] theorem State.modTh_cur (s : State) (u : Nat) (f : Thread → Thread) : (s.modTh u f).cur = s.cur := rfl
@[simp] theorem State.modTh_agenda (s : State) (u : Nat) (f : Thread → Thread) : (s.modTh u f).agenda = s.agenda := rfl
@[simp] theorem State.modTh_tickDue (s : State) (u : Nat) (f : Thread → Thread) : (s.modTh u f).tickDue = s.tickDue := rfl
@[simp] theorem State.modTh_free (s : State) (u : Nat) (f : Thread → Thread) : (s.modTh u f).free = s.free := rfl
@[simp] theorem State.modTh_wire (s : State) (u : Nat) (f : Thread → Thread) : (s.modTh u f).wire = s.wire := rfl
@[simp] theorem State.modTh_txid (s : State) (u : Nat) (f : Thread → Thread) : (s.modTh u f).txid = s.txid := rfl
@[simp] theorem State.modTh_crossed (s : State) (u : Nat) (f : Thread → Thread) : (s.modTh u f).crossed = s.crossed := rfl

/-! ### setTh -/

@[simp] theorem State.setTh_mem (s : State) (u : Nat) (x : Thread) : (s.setTh u x).mem = s.mem := rfl
@[simp] theorem State.setTh_poison (s : State) (u : Nat) (x : Thread) : (s.setTh u x).poison = s.poison := rfl
@[simp] theorem State.setTh_flips (s : State) (u : Nat) (x : Thread) : (s.setTh u x).flips = s.flips := rfl
@[simp] theorem State.setTh_elided (s : State) (u : Nat) (x : Thread) : (s.setTh u x).elided = s.elided := rfl
@[simp] theorem State.setTh_lostMeta (s : State) (u : Nat) (x : Thread) : (s.setTh u x).lostMeta = s.lostMeta := rfl
@[simp] theorem State.setTh_cached (s : State) (u : Nat) (x : Thread) : (s.setTh u x).cached = s.cached := rfl
@[simp] theorem State.setTh_thr (s : State) (u : Nat) (x : Thread) : (s.setTh u x).thr = Map.set s.thr u x := rfl
@[simp] theorem State.setTh_core (s : State) (u : Nat) (x : Thread) : (s.setTh u x).core = s.core := rfl
@[simp] theorem State.setTh_clu (s : State) (u : Nat) (x : Thread) : (s.setTh u x).clu = s.clu := rfl
@[simp] theorem State.setTh_reac (s : State) (u : Nat) (x : Thread) : (s.setTh u x).reac = s.reac := rfl
@[simp] theorem State.setTh_bh (s : State) (u : Nat) (x : Thread) : (s.setTh u x).bh = s.bh := rfl
@[simp] theorem State.setTh_dev (s : State) (u : Nat) (x : Thread) : (s.setTh u x).dev = s.dev := rfl
@[simp] theorem State.setTh_part (s : State) (u : Nat) (x : Thread) : (s.setTh u x).part = s.part := rfl
@[simp] theorem State.setTh_link (s : State) (u : Nat) (x : Thread) : (s.setTh u x).link = s.link := rfl
@[simp] theorem State.setTh_sw (s : State) (u : Nat) (x : Thread) : (s.setTh u x).sw = s.sw := rfl
@[simp] theorem State.setTh_flight (s : State) (u : Nat) (x : Thread) : (s.setTh u x).flight = s.flight := rfl
@[simp] theorem State.setTh_nextId (s : State) (u : Nat) (x : Thread) : (s.setTh u x).nextId = s.nextId := rfl
@[simp] theorem State.setTh_cur (s : State) (u : Nat) (x : Thread) : (s.setTh u x).cur = s.cur := rfl
@[simp] theorem State.setTh_agenda (s : State) (u : Nat) (x : Thread) : (s.setTh u x).agenda = s.agenda := rfl
@[simp] theorem State.setTh_tickDue (s : State) (u : Nat) (x : Thread) : (s.setTh u x).tickDue = s.tickDue := rfl
@[simp] theorem State.setTh_free (s : State) (u : Nat) (x : Thread) : (s.setTh u x).free = s.free := rfl
@[simp] theorem State.setTh_wire (s : State) (u : Nat) (x : Thread) : (s.setTh u x).wire = s.wire := rfl
@[simp] theorem State.setTh_txid (s : State) (u : Nat) (x : Thread) : (s.setTh u x).txid = s.txid := rfl
@[simp] theorem State.setTh_crossed (s : State) (u : Nat) (x : Thread) : (s.setTh u x).crossed = s.crossed := rfl

/-! ### modMe -/

@[simp] theorem State.modMe_mem (s : State) (f : Thread → Thread) : (s.modMe f).mem = s.mem := rfl
@[simp] theorem State.modMe_poison (s : State) (f : Thread → Thread) : (s.modMe f).poison = s.poison := rfl
@[simp] theorem State.modMe_flips (s : State) (f : Thread → Thread) : (s.modMe f).flips = s.flips := rfl
@[simp] theorem State.modMe_elided (s : State) (f : Thread → Thread) : (s.modMe f).elided = s.elided := rfl
@[simp] theorem State.modMe_lostMeta (s : State) (f : Thread → Thread) : (s.modMe f).lostMeta = s.lostMeta := rfl
@[simp] theorem State.modMe_cached (s : State) (f : Thread → Thread) : (s.modMe f).cached = s.cached := rfl
@[simp] theorem State.modMe_thr (s : State) (f : Thread → Thread) : (s.modMe f).thr = Map.set s.thr s.cur (f s.me) := rfl
@[simp] theorem State.modMe_core (s : State) (f : Thread → Thread) : (s.modMe f).core = s.core := rfl
@[simp] theorem State.modMe_clu (s : State) (f : Thread → Thread) : (s.modMe f).clu = s.clu := rfl
@[simp] theorem State.modMe_reac (s : State) (f : Thread → Thread) : (s.modMe f).reac = s.reac := rfl
@[simp] theorem State.modMe_bh (s : State) (f : Thread → Thread) : (s.modMe f).bh = s.bh := rfl
@[simp] theorem State.modMe_dev (s : State) (f : Thread → Thread) : (s.modMe f).dev = s.dev := rfl
@[simp] theorem State.modMe_part (s : State) (f : Thread → Thread) : (s.modMe f).part = s.part := rfl
@[simp] theorem State.modMe_link (s : State) (f : Thread → Thread) : (s.modMe f).link = s.link := rfl
@[simp] theorem State.modMe_sw (s : State) (f : Thread → Thread) : (s.modMe f).sw = s.sw := rfl
@[simp] theorem State.modMe_flight (s : State) (f : Thread → Thread) : (s.modMe f).flight = s.flight := rfl
@[simp] theorem State.modMe_nextId (s : State) (f : Thread → Thread) : (s.modMe f).nextId = s.nextId := rfl
@[simp] theorem State.modMe_cur (s : State) (f : Thread → Thread) : (s.modMe f).cur = s.cur := rfl
@[simp] theorem State.modMe_agenda (s : State) (f : Thread → Thread) : (s.modMe f).agenda = s.agenda := rfl
@[simp] theorem State.modMe_tickDue (s : State) (f : Thread → Thread) : (s.modMe f).tickDue = s.tickDue := rfl
@[simp] theorem State.modMe_free (s : State) (f : Thread → Thread) : (s.modMe f).free = s.free := rfl
@[simp] theorem State.modMe_wire (s : State) (f : Thread → Thread) : (s.modMe f).wire = s.wire := rfl
@[simp] theorem State.modMe_txid (s : State) (f : Thread → Thread) : (s.modMe f).txid = s.txid := rfl
@[simp] theorem State.modMe_crossed (s : State) (f : Thread → Thread) : (s.modMe f).crossed = s.crossed := rfl

/-! ### modAct -/

@[simp] theorem State.modAct_mem (s : State) (u : Nat) (f : Act → Act) : (s.modAct u f).mem = s.mem := rfl
@[simp] theorem State.modAct_poison (s : State) (u : Nat) (f : Act → Act) : (s.modAct u f).poison = s.poison := rfl
@[simp] theorem State.modAct_flips (s : State) (u : Nat) (f : Act → Act) : (s.modAct u f).flips = s.flips := rfl
@[simp] theorem State.modAct_elided (s : State) (u : Nat) (f : Act → Act) : (s.modAct u f).elided = s.elided := rfl
@[simp] theorem State.modAct_lostMeta (s : State) (u : Nat) (f : Act → Act) : (s.modAct u f).lostMeta = s.lostMeta := rfl
@[simp] theorem State.modAct_cached (s : State) (u : Nat) (f : Act → Act) : (s.modAct u f).cached = s.cached := rfl
@[simp] theorem State.modAct_thr (s : State) (u : Nat) (f : Act → Act) : (s.modAct u f).thr = Map.set s.thr u { s.th u with act := (s.th u).act.map f } := rfl
@[simp] theorem State.modAct_core (s : State) (u : Nat) (f : Act → Act) : (s.modAct u f).core = s.core := rfl
@[simp] theorem State.modAct_clu (s : State) (u : Nat) (f : Act → Act) : (s.modAct u f).clu = s.clu := rfl
@[simp] theorem State.modAct_reac (s : State) (u : Nat) (f : Act → Act) : (s.modAct u f).reac = s.reac := rfl
@[simp] theorem State.modAct_bh (s : State) (u : Nat) (f : Act → Act) : (s.modAct u f).bh = s.bh := rfl
@[simp] theorem State.modAct_dev (s : State) (u : Nat) (f : Act → Act) : (s.modAct u f).dev = s.dev := rfl
@[simp] theorem State.modAct_part (s : State) (u : Nat) (f : Act → Act) : (s.modAct u f).part = s.part := rfl
@[simp] theorem State.modAct_link (s : State) (u : Nat) (f : Act → Act) : (s.modAct u f).link = s.link := rfl
@[simp] theorem State.modAct_sw (s : State) (u : Nat) (f : Act → Act) : (s.modAct u f).sw = s.sw := rfl
@[simp] theorem State.modAct_flight (s : State) (u : Nat) (f : Act → Act) : (s.modAct u f).flight = s.flight := rfl
@[simp] theorem State.modAct_nextId (s : State) (u : Nat) (f : Act → Act) : (s.modAct u f).nextId = s.nextId := rfl
@[simp] theorem State.modAct_cur (s : State) (u : Nat) (f : Act → Act) : (s.modAct u f).cur = s.cur := rfl
@[simp] theorem State.modAct_agenda (s : State) (u : Nat) (f : Act → Act) : (s.modAct u f).agenda = s.agenda := rfl
@[simp] theorem State.modAct_tickDue (s : State) (u : Nat) (f : Act → Act) : (s.modAct u f).tickDue = s.tickDue := rfl
@[simp] theorem State.modAct_free (s : State) (u : Nat) (f : Act → Act) : (s.modAct u f).free = s.free := rfl
@[simp] theorem State.modAct_wire (s : State) (u : Nat) (f : Act → Act) : (s.modAct u f).wire = s.wire := rfl
@[simp] theorem State.modAct_txid (s : State) (u : Nat) (f : Act → Act) : (s.modAct u f).txid = s.txid := rfl
@[simp] theorem State.modAct_crossed (s : State) (u : Nat) (f : Act → Act) : (s.modAct u f).crossed = s.crossed := rfl

/-! ### modCo -/

@[simp] theorem State.modCo_mem (s : State) (u : Nat) (f : CoreSt → CoreSt) : (s.modCo u f).mem = s.mem := rfl
@[simp] theorem State.modCo_poison (s : State) (u : Nat) (f : CoreSt → CoreSt) : (s.modCo u f).poison = s.poison := rfl
@[simp] theorem State.modCo_flips (s : State) (u : Nat) (f : CoreSt → CoreSt) : (s.modCo u f).flips = s.flips := rfl
@[simp] theorem State.modCo_elided (s : State) (u : Nat) (f : CoreSt → CoreSt) : (s.modCo u f).elided = s.elided := rfl
@[simp] theorem State.modCo_lostMeta (s : State) (u : Nat) (f : CoreSt → CoreSt) : (s.modCo u f).lostMeta = s.lostMeta := rfl
@[simp] theorem State.modCo_cached (s : State) (u : Nat) (f : CoreSt → CoreSt) : (s.modCo u f).cached = s.cached := rfl
@[simp] theorem State.modCo_thr (s : State) (u : Nat) (f : CoreSt → CoreSt) : (s.modCo u f).thr = s.thr := rfl
@[simp] theorem State.modCo_core (s : State) (u : Nat) (f : CoreSt → CoreSt) : (s.modCo u f).core = Map.set s.core u (f (s.co u)) := rfl
@[simp] theorem State.modCo_clu (s : State) (u : Nat) (f : CoreSt → CoreSt) : (s.modCo u f).clu = s.clu := rfl
@[simp] theorem State.modCo_reac (s : State) (u : Nat) (f : CoreSt → CoreSt) : (s.modCo u f).reac = s.reac := rfl
@[simp] theorem State.modCo_bh (s : State) (u : Nat) (f : CoreSt → CoreSt) : (s.modCo u f).bh = s.bh := rfl
@[simp] theorem State.modCo_dev (s : State) (u : Nat) (f : CoreSt → CoreSt) : (s.modCo u f).dev = s.dev := rfl
@[simp] theorem State.modCo_part (s : State) (u : Nat) (f : CoreSt → CoreSt) : (s.modCo u f).part = s.part := rfl
@[simp] theorem State.modCo_link (s : State) (u : Nat) (f : CoreSt → CoreSt) : (s.modCo u f).link = s.link := rfl
@[simp] theorem State.modCo_sw (s : State) (u : Nat) (f : CoreSt → CoreSt) : (s.modCo u f).sw = s.sw := rfl
@[simp] theorem State.modCo_flight (s : State) (u : Nat) (f : CoreSt → CoreSt) : (s.modCo u f).flight = s.flight := rfl
@[simp] theorem State.modCo_nextId (s : State) (u : Nat) (f : CoreSt → CoreSt) : (s.modCo u f).nextId = s.nextId := rfl
@[simp] theorem State.modCo_cur (s : State) (u : Nat) (f : CoreSt → CoreSt) : (s.modCo u f).cur = s.cur := rfl
@[simp] theorem State.modCo_agenda (s : State) (u : Nat) (f : CoreSt → CoreSt) : (s.modCo u f).agenda = s.agenda := rfl
@[simp] theorem State.modCo_tickDue (s : State) (u : Nat) (f : CoreSt → CoreSt) : (s.modCo u f).tickDue = s.tickDue := rfl
@[simp] theorem State.modCo_free (s : State) (u : Nat) (f : CoreSt → CoreSt) : (s.modCo u f).free = s.free := rfl
@[simp] theorem State.modCo_wire (s : State) (u : Nat) (f : CoreSt → CoreSt) : (s.modCo u f).wire = s.wire := rfl
@[simp] theorem State.modCo_txid (s : State) (u : Nat) (f : CoreSt → CoreSt) : (s.modCo u f).txid = s.txid := rfl
@[simp] theorem State.modCo_crossed (s : State) (u : Nat) (f : CoreSt → CoreSt) : (s.modCo u f).crossed = s.crossed := rfl

/-! ### modCl -/

@[simp] theorem State.modCl_mem (s : State) (u : Nat) (f : Cluster → Cluster) : (s.modCl u f).mem = s.mem := rfl
@[simp] theorem State.modCl_poison (s : State) (u : Nat) (f : Cluster → Cluster) : (s.modCl u f).poison = s.poison := rfl
@[simp] theorem State.modCl_flips (s : State) (u : Nat) (f : Cluster → Cluster) : (s.modCl u f).flips = s.flips := rfl
@[simp] theorem State.modCl_elided (s : State) (u : Nat) (f : Cluster → Cluster) : (s.modCl u f).elided = s.elided := rfl
@[simp] theorem State.modCl_lostMeta (s : State) (u : Nat) (f : Cluster → Cluster) : (s.modCl u f).lostMeta = s.lostMeta := rfl
@[simp] theorem State.modCl_cached (s : State) (u : Nat) (f : Cluster → Cluster) : (s.modCl u f).cached = s.cached := rfl
@[simp] theorem State.modCl_thr (s : State) (u : Nat) (f : Cluster → Cluster) : (s.modCl u f).thr = s.thr := rfl
@[simp] theorem State.modCl_core (s : State) (u : Nat) (f : Cluster → Cluster) : (s.modCl u f).core = s.core := rfl
@[simp] theorem State.modCl_clu (s : State) (u : Nat) (f : Cluster → Cluster) : (s.modCl u f).clu = Map.set s.clu u (f (s.cl u)) := rfl
@[simp] theorem State.modCl_reac (s : State) (u : Nat) (f : Cluster → Cluster) : (s.modCl u f).reac = s.reac := rfl
@[simp] theorem State.modCl_bh (s : State) (u : Nat) (f : Cluster → Cluster) : (s.modCl u f).bh = s.bh := rfl
@[simp] theorem State.modCl_dev (s : State) (u : Nat) (f : Cluster → Cluster) : (s.modCl u f).dev = s.dev := rfl
@[simp] theorem State.modCl_part (s : State) (u : Nat) (f : Cluster → Cluster) : (s.modCl u f).part = s.part := rfl
@[simp] theorem State.modCl_link (s : State) (u : Nat) (f : Cluster → Cluster) : (s.modCl u f).link = s.link := rfl
@[simp] theorem State.modCl_sw (s : State) (u : Nat) (f : Cluster → Cluster) : (s.modCl u f).sw = s.sw := rfl
@[simp] theorem State.modCl_flight (s : State) (u : Nat) (f : Cluster → Cluster) : (s.modCl u f).flight = s.flight := rfl
@[simp] theorem State.modCl_nextId (s : State) (u : Nat) (f : Cluster → Cluster) : (s.modCl u f).nextId = s.nextId := rfl
@[simp] theorem State.modCl_cur (s : State) (u : Nat) (f : Cluster → Cluster) : (s.modCl u f).cur = s.cur := rfl
@[simp] theorem State.modCl_agenda (s : State) (u : Nat) (f : Cluster → Cluster) : (s.modCl u f).agenda = s.agenda := rfl
@[simp] theorem State.modCl_tickDue (s : State) (u : Nat) (f : Cluster → Cluster) : (s.modCl u f).tickDue = s.tickDue := rfl
@[simp] theorem State.modCl_free (s : State) (u : Nat) (f : Cluster → Cluster) : (s.modCl u f).free = s.free := rfl
@[simp] theorem State.modCl_wire (s : State) (u : Nat) (f : Cluster → Cluster) : (s.modCl u f).wire = s.wire := rfl
@[simp] theorem State.modCl_txid (s : State) (u : Nat) (f : Cluster → Cluster) : (s.modCl u f).txid = s.txid := rfl
@[simp] theorem State.modCl_crossed (s : State) (u : Nat) (f : Cluster → Cluster) : (s.modCl u f).crossed = s.crossed := rfl

/-! ### modBu -/

@[simp] theorem State.modBu_mem (s : State) (u : Nat) (f : Bulkhead → Bulkhead) : (s.modBu u f).mem = s.mem := rfl
@[simp] theorem State.modBu_poison (s : State) (u : Nat) (f : Bulkhead → Bulkhead) : (s.modBu u f).poison = s.poison := rfl
@[simp] theorem State.modBu_flips (s : State) (u : Nat) (f : Bulkhead → Bulkhead) : (s.modBu u f).flips = s.flips := rfl
@[simp] theorem State.modBu_elided (s : State) (u : Nat) (f : Bulkhead → Bulkhead) : (s.modBu u f).elided = s.elided := rfl
@[simp] theorem State.modBu_lostMeta (s : State) (u : Nat) (f : Bulkhead → Bulkhead) : (s.modBu u f).lostMeta = s.lostMeta := rfl
@[simp] theorem State.modBu_cached (s : State) (u : Nat) (f : Bulkhead → Bulkhead) : (s.modBu u f).cached = s.cached := rfl
@[simp] theorem State.modBu_thr (s : State) (u : Nat) (f : Bulkhead → Bulkhead) : (s.modBu u f).thr = s.thr := rfl
@[simp] theorem State.modBu_core (s : State) (u : Nat) (f : Bulkhead → Bulkhead) : (s.modBu u f).core = s.core := rfl
@[simp] theorem State.modBu_clu (s : State) (u : Nat) (f : Bulkhead → Bulkhead) : (s.modBu u f).clu = s.clu := rfl
@[simp] theorem State.modBu_reac (s : State) (u : Nat) (f : Bulkhead → Bulkhead) : (s.modBu u f).reac = s.reac := rfl
@[simp] theorem State.modBu_bh (s : State) (u : Nat) (f : Bulkhead → Bulkhead) : (s.modBu u f).bh = Map.set s.bh u (f (s.bu u)) := rfl
@[simp] theorem State.modBu_dev (s : State) (u : Nat) (f : Bulkhead → Bulkhead) : (s.modBu u f).dev = s.dev := rfl
@[simp] theorem State.modBu_part (s : State) (u : Nat) (f : Bulkhead → Bulkhead) : (s.modBu u f).part = s.part := rfl
@[simp] theorem State.modBu_link (s : State) (u : Nat) (f : Bulkhead → Bulkhead) : (s.modBu u f).link = s.link := rfl
@[simp] theorem State.modBu_sw (s : State) (u : Nat) (f : Bulkhead → Bulkhead) : (s.modBu u f).sw = s.sw := rfl
@[simp] theorem State.modBu_flight (s : State) (u : Nat) (f : Bulkhead → Bulkhead) : (s.modBu u f).flight = s.flight := rfl
@[simp] theorem State.modBu_nextId (s : State) (u : Nat) (f : Bulkhead → Bulkhead) : (s.modBu u f).nextId = s.nextId := rfl
@[simp] theorem State.modBu_cur (s : State) (u : Nat) (f : Bulkhead → Bulkhead) : (s.modBu u f).cur = s.cur := rfl
@[simp] theorem State.modBu_agenda (s : State) (u : Nat) (f : Bulkhead → Bulkhead) : (s.modBu u f).agenda = s.agenda := rfl
@[simp] theorem State.modBu_tickDue (s : State) (u : Nat) (f : Bulkhead → Bulkhead) : (s.modBu u f).tickDue = s.tickDue := rfl
@[simp] theorem State.modBu_free (s : State) (u : Nat) (f : Bulkhead → Bulkhead) : (s.modBu u f).free = s.free := rfl
@[simp] theorem State.modBu_wire (s : State) (u : Nat) (f : Bulkhead → Bulkhead) : (s.modBu u f).wire = s.wire := rfl
@[simp] theorem State.modBu_txid (s : State) (u : Nat) (f : Bulkhead → Bulkhead) : (s.modBu u f).txid = s.txid := rfl
@[simp] theorem State.modBu_crossed (s : State) (u : Nat) (f : Bulkhead → Bulkhead) : (s.modBu u f).crossed = s.crossed := rfl

/-! ### modDe -/

@[simp] theorem State.modDe_mem (s : State) (u : Nat) (f : Device → Device) : (s.modDe u f).mem = s.mem := rfl
@[simp] theorem State.modDe_poison (s : State) (u : Nat) (f : Device → Device) : (s.modDe u f).poison = s.poison := rfl
@[simp] theorem State.modDe_flips (s : State) (u : Nat) (f : Device → Device) : (s.modDe u f).flips = s.flips := rfl
@[simp] theorem State.modDe_elided (s : State) (u : Nat) (f : Device → Device) : (s.modDe u f).elided = s.elided := rfl
@[simp] theorem State.modDe_lostMeta (s : State) (u : Nat) (f : Device → Device) : (s.modDe u f).lostMeta = s.lostMeta := rfl
@[simp] theorem State.modDe_cached (s : State) (u : Nat) (f : Device → Device) : (s.modDe u f).cached = s.cached := rfl
@[simp] theorem State.modDe_thr (s : State) (u : Nat) (f : Device → Device) : (s.modDe u f).thr = s.thr := rfl
@[simp] theorem State.modDe_core (s : State) (u : Nat) (f : Device → Device) : (s.modDe u f).core = s.core := rfl
@[simp] theorem State.modDe_clu (s : State) (u : Nat) (f : Device → Device) : (s.modDe u f).clu = s.clu := rfl
@[simp] theorem State.modDe_reac (s : State) (u : Nat) (f : Device → Device) : (s.modDe u f).reac = s.reac := rfl
@[simp] theorem State.modDe_bh (s : State) (u : Nat) (f : Device → Device) : (s.modDe u f).bh = s.bh := rfl
@[simp] theorem State.modDe_dev (s : State) (u : Nat) (f : Device → Device) : (s.modDe u f).dev = Map.set s.dev u (f (s.de u)) := rfl
@[simp] theorem State.modDe_part (s : State) (u : Nat) (f : Device → Device) : (s.modDe u f).part = s.part := rfl
@[simp] theorem State.modDe_link (s : State) (u : Nat) (f : Device → Device) : (s.modDe u f).link = s.link := rfl
@[simp] theorem State.modDe_sw (s : State) (u : Nat) (f : Device → Device) : (s.modDe u f).sw = s.sw := rfl
@[simp] theorem State.modDe_flight (s : State) (u : Nat) (f : Device → Device) : (s.modDe u f).flight = s.flight := rfl
@[simp] theorem State.modDe_nextId (s : State) (u : Nat) (f : Device → Device) : (s.modDe u f).nextId = s.nextId := rfl
@[simp] theorem State.modDe_cur (s : State) (u : Nat) (f : Device → Device) : (s.modDe u f).cur = s.cur := rfl
@[simp] theorem State.modDe_agenda (s : State) (u : Nat) (f : Device → Device) : (s.modDe u f).agenda = s.agenda := rfl
@[simp] theorem State.modDe_tickDue (s : State) (u : Nat) (f : Device → Device) : (s.modDe u f).tickDue = s.tickDue := rfl
@[simp] theorem State.modDe_free (s : State) (u : Nat) (f : Device → Device) : (s.modDe u f).free = s.free := rfl
@[simp] theorem State.modDe_wire (s : State) (u : Nat) (f : Device → Device) : (s.modDe u f).wire = s.wire := rfl
@[simp] theorem State.modDe_txid (s : State) (u : Nat) (f : Device → Device) : (s.modDe u f).txid = s.txid := rfl
@[simp] theorem State.modDe_crossed (s : State) (u : Nat) (f : Device → Device) : (s.modDe u f).crossed = s.crossed := rfl

/-! ### modPt -/

@[simp] theorem State.modPt_mem (s : State) (u : Nat) (f : Partition → Partition) : (s.modPt u f).mem = s.mem := rfl
@[simp] theorem State.modPt_poison (s : State) (u : Nat) (f : Partition → Partition) : (s.modPt u f).poison = s.poison := rfl
@[simp] theorem State.modPt_flips (s : State) (u : Nat) (f : Partition → Partition) : (s.modPt u f).flips = s.flips := rfl
@[simp] theorem State.modPt_elided (s : State) (u : Nat) (f : Partition → Partition) : (s.modPt u f).elided = s.elided := rfl
@[simp] theorem State.modPt_lostMeta (s : State) (u : Nat) (f : Partition → Partition) : (s.modPt u f).lostMeta = s.lostMeta := rfl
@[simp] theorem State.modPt_cached (s : State) (u : Nat) (f : Partition → Partition) : (s.modPt u f).cached = s.cached := rfl
@[simp] theorem State.modPt_thr (s : State) (u : Nat) (f : Partition → Partition) : (s.modPt u f).thr = s.thr := rfl
@[simp] theorem State.modPt_core (s : State) (u : Nat) (f : Partition → Partition) : (s.modPt u f).core = s.core := rfl
@[simp] theorem State.modPt_clu (s : State) (u : Nat) (f : Partition → Partition) : (s.modPt u f).clu = s.clu := rfl
@[simp] theorem State.modPt_reac (s : State) (u : Nat) (f : Partition → Partition) : (s.modPt u f).reac = s.reac := rfl
@[simp] theorem State.modPt_bh (s : State) (u : Nat) (f : Partition → Partition) : (s.modPt u f).bh = s.bh := rfl
@[simp] theorem State.modPt_dev (s : State) (u : Nat) (f : Partition → Partition) : (s.modPt u f).dev = s.dev := rfl
@[simp] theorem State.modPt_part (s : State) (u : Nat) (f : Partition → Partition) : (s.modPt u f).part = Map.set s.part u (f (s.pt u)) := rfl
@[simp] theorem State.modPt_link (s : State) (u : Nat) (f : Partition → Partition) : (s.modPt u f).link = s.link := rfl
@[simp] theorem State.modPt_sw (s : State) (u : Nat) (f : Partition → Partition) : (s.modPt u f).sw = s.sw := rfl
@[simp] theorem State.modPt_flight (s : State) (u : Nat) (f : Partition → Partition) : (s.modPt u f).flight = s.flight := rfl
@[simp] theorem State.modPt_nextId (s : State) (u : Nat) (f : Partition → Partition) : (s.modPt u f).nextId = s.nextId := rfl
@[simp] theorem State.modPt_cur (s : State) (u : Nat) (f : Partition → Partition) : (s.modPt u f).cur = s.cur := rfl
@[simp] theorem State.modPt_agenda (s : State) (u : Nat) (f : Partition → Partition) : (s.modPt u f).agenda = s.agenda := rfl
@[simp] theorem State.modPt_tickDue (s : State) (u : Nat) (f : Partition → Partition) : (s.modPt u f).tickDue = s.tickDue := rfl
@[simp] theorem State.modPt_free (s : State) (u : Nat) (f : Partition → Partition) : (s.modPt u f).free = s.free := rfl
@[simp] theorem State.modPt_wire (s : State) (u : Nat) (f : Partition → Partition) : (s.modPt u f).wire = s.wire := rfl
@[simp] theorem State.modPt_txid (s : State) (u : Nat) (f : Partition → Partition) : (s.modPt u f).txid = s.txid := rfl
@[simp] theorem State.modPt_crossed (s : State) (u : Nat) (f : Partition → Partition) : (s.modPt u f).crossed = s.crossed := rfl

/-! ### modLi -/

@[simp] theorem State.modLi_mem (s : State) (u : Nat) (f : Link → Link) : (s.modLi u f).mem = s.mem := rfl
@[simp] theorem State.modLi_poison (s : State) (u : Nat) (f : Link → Link) : (s.modLi u f).poison = s.poison := rfl
@[simp] theorem State.modLi_flips (s : State) (u : Nat) (f : Link → Link) : (s.modLi u f).flips = s.flips := rfl
@[simp] theorem State.modLi_elided (s : State) (u : Nat) (f : Link → Link) : (s.modLi u f).elided = s.elided := rfl
@[simp] theorem State.modLi_lostMeta (s : State) (u : Nat) (f : Link → Link) : (s.modLi u f).lostMeta = s.lostMeta := rfl
@[simp] theorem State.modLi_cached (s : State) (u : Nat) (f : Link → Link) : (s.modLi u f).cached = s.cached := rfl
@[simp] theorem State.modLi_thr (s : State) (u : Nat) (f : Link → Link) : (s.modLi u f).thr = s.thr := rfl
@[simp] theorem State.modLi_core (s : State) (u : Nat) (f : Link → Link) : (s.modLi u f).core = s.core := rfl
@[simp] theorem State.modLi_clu (s : State) (u : Nat) (f : Link → Link) : (s.modLi u f).clu = s.clu := rfl
@[simp] theorem State.modLi_reac (s : State) (u : Nat) (f : Link → Link) : (s.modLi u f).reac = s.reac := rfl
@[simp] theorem State.modLi_bh (s : State) (u : Nat) (f : Link → Link) : (s.modLi u f).bh = s.bh := rfl
@[simp] theorem State.modLi_dev (s : State) (u : Nat) (f : Link → Link) : (s.modLi u f).dev = s.dev := rfl
@[simp] theorem State.modLi_part (s : State) (u : Nat) (f : Link → Link) : (s.modLi u f).part = s.part := rfl
@[simp] theorem State.modLi_link (s : State) (u : Nat) (f : Link → Link) : (s.modLi u f).link = Map.set s.link u (f (s.li u)) := rfl
@[simp] theorem State.modLi_sw (s : State) (u : Nat) (f : Link → Link) : (s.modLi u f).sw = s.sw := rfl
@[simp] theorem State.modLi_flight (s : State) (u : Nat) (f : Link → Link) : (s.modLi u f).flight = s.flight := rfl
@[simp] theorem State.modLi_nextId (s : State) (u : Nat) (f : Link → Link) : (s.modLi u f).nextId = s.nextId := rfl
@[simp] theorem State.modLi_cur (s : State) (u : Nat) (f : Link → Link) : (s.modLi u f).cur = s.cur := rfl
@[simp] theorem State.modLi_agenda (s : State) (u : Nat) (f : Link → Link) : (s.modLi u f).agenda = s.agenda := rfl
@[simp] theorem State.modLi_tickDue (s : State) (u : Nat) (f : Link → Link) : (s.modLi u f).tickDue = s.tickDue := rfl
@[simp] theorem State.modLi_free (s : State) (u : Nat) (f : Link → Link) : (s.modLi u f).free = s.free := rfl
@[simp] theorem State.modLi_wire (s : State) (u : Nat) (f : Link → Link) : (s.modLi u f).wire = s.wire := rfl
@[simp] theorem State.modLi_txid (s : State) (u : Nat) (f : Link → Link) : (s.modLi u f).txid = s.txid := rfl
@[simp] theorem State.modLi_crossed (s : State) (u : Nat) (f : Link → Link) : (s.modLi u f).crossed = s.crossed := rfl

/-! ### modSw -/

@[simp] theorem State.modSw_mem (s : State) (u : Nat) (f : Switch → Switch) : (s.modSw u f).mem = s.mem := rfl
@[simp] theorem State.modSw_poison (s : State) (u : Nat) (f : Switch → Switch) : (s.modSw u f).poison = s.poison := rfl
@[simp] theorem State.modSw_flips (s : State) (u : Nat) (f : Switch → Switch) : (s.modSw u f).flips = s.flips := rfl
@[simp] theorem State.modSw_elided (s : State) (u : Nat) (f : Switch → Switch) : (s.modSw u f).elided = s.elided := rfl
@[simp] theorem State.modSw_lostMeta (s : State) (u : Nat) (f : Switch → Switch) : (s.modSw u f).lostMeta = s.lostMeta := rfl
@[simp] theorem State.modSw_cached (s : State) (u : Nat) (f : Switch → Switch) : (s.modSw u f).cached = s.cached := rfl
@[simp] theorem State.modSw_thr (s : State) (u : Nat) (f : Switch → Switch) : (s.modSw u f).thr = s.thr := rfl
@[simp] theorem State.modSw_core (s : State) (u : Nat) (f : Switch → Switch) : (s.modSw u f).core = s.core := rfl
@[simp] theorem State.modSw_clu (s : State) (u : Nat) (f : Switch → Switch) : (s.modSw u f).clu = s.clu := rfl
@[simp] theorem State.modSw_reac (s : State) (u : Nat) (f : Switch → Switch) : (s.modSw u f).reac = s.reac := rfl
@[simp] theorem State.modSw_bh (s : State) (u : Nat) (f : Switch → Switch) : (s.modSw u f).bh = s.bh := rfl
@[simp] theorem State.modSw_dev (s : State) (u : Nat) (f : Switch → Switch) : (s.modSw u f).dev = s.dev := rfl
@[simp] theorem State.modSw_part (s : State) (u : Nat) (f : Switch → Switch) : (s.modSw u f).part = s.part := rfl
@[simp] theorem State.modSw_link (s : State) (u : Nat) (f : Switch → Switch) : (s.modSw u f).link = s.link := rfl
@[simp] theorem State.modSw_sw (s : State) (u : Nat) (f : Switch → Switch) : (s.modSw u f).sw = Map.set s.sw u (f (s.swi u)) := rfl
@[simp] theorem State.modSw_flight (s : State) (u : Nat) (f : Switch → Switch) : (s.modSw u f).flight = s.flight := rfl
@[simp] theorem State.modSw_nextId (s : State) (u : Nat) (f : Switch → Switch) : (s.modSw u f).nextId = s.nextId := rfl
@[simp] theorem State.modSw_cur (s : State) (u : Nat) (f : Switch → Switch) : (s.modSw u f).cur = s.cur := rfl
@[simp] theorem State.modSw_agenda (s : State) (u : Nat) (f : Switch → Switch) : (s.modSw u f).agenda = s.agenda := rfl
@[simp] theorem State.modSw_tickDue (s : State) (u : Nat) (f : Switch → Switch) : (s.modSw u f).tickDue = s.tickDue := rfl
@[simp] theorem State.modSw_free (s : State) (u : Nat) (f : Switch → Switch) : (s.modSw u f).free = s.free := rfl
@[simp] theorem State.modSw_wire (s : State) (u : Nat) (f : Switch → Switch) : (s.modSw u f).wire = s.wire := rfl
@[simp] theorem State.modSw_txid (s : State) (u : Nat) (f : Switch → Switch) : (s.modSw u f).txid = s.txid := rfl
@[simp] theorem State.modSw_crossed (s : State) (u : Nat) (f : Switch → Switch) : (s.modSw u f).crossed = s.crossed := rfl

/-! ### modPo: a port lies in its device -/

@[simp] theorem State.modPo_mem (s : State) (p : Nat) (f : Port → Port) : (s.modPo p f).mem = s.mem := rfl
@[simp] theorem State.modPo_poison (s : State) (p : Nat) (f : Port → Port) : (s.modPo p f).poison = s.poison := rfl
@[simp] theorem State.modPo_flips (s : State) (p : Nat) (f : Port → Port) : (s.modPo p f).flips = s.flips := rfl
@[simp] theorem State.modPo_elided (s : State) (p : Nat) (f : Port → Port) : (s.modPo p f).elided = s.elided := rfl
@[simp] theorem State.modPo_lostMeta (s : State) (p : Nat) (f : Port → Port) : (s.modPo p f).lostMeta = s.lostMeta := rfl
@[simp] theorem State.modPo_cached (s : State) (p : Nat) (f : Port → Port) : (s.modPo p f).cached = s.cached := rfl
@[simp] theorem State.modPo_thr (s : State) (p : Nat) (f : Port → Port) : (s.modPo p f).thr = s.thr := rfl
@[simp] theorem State.modPo_core (s : State) (p : Nat) (f : Port → Port) : (s.modPo p f).core = s.core := rfl
@[simp] theorem State.modPo_clu (s : State) (p : Nat) (f : Port → Port) : (s.modPo p f).clu = s.clu := rfl
@[simp] theorem State.modPo_reac (s : State) (p : Nat) (f : Port → Port) : (s.modPo p f).reac = s.reac := rfl
@[simp] theorem State.modPo_bh (s : State) (p : Nat) (f : Port → Port) : (s.modPo p f).bh = s.bh := rfl
@[simp] theorem State.modPo_part (s : State) (p : Nat) (f : Port → Port) : (s.modPo p f).part = s.part := rfl
@[simp] theorem State.modPo_link (s : State) (p : Nat) (f : Port → Port) : (s.modPo p f).link = s.link := rfl
@[simp] theorem State.modPo_sw (s : State) (p : Nat) (f : Port → Port) : (s.modPo p f).sw = s.sw := rfl
@[simp] theorem State.modPo_flight (s : State) (p : Nat) (f : Port → Port) : (s.modPo p f).flight = s.flight := rfl
@[simp] theorem State.modPo_nextId (s : State) (p : Nat) (f : Port → Port) : (s.modPo p f).nextId = s.nextId := rfl
@[simp] theorem State.modPo_cur (s : State) (p : Nat) (f : Port → Port) : (s.modPo p f).cur = s.cur := rfl
@[simp] theorem State.modPo_agenda (s : State) (p : Nat) (f : Port → Port) : (s.modPo p f).agenda = s.agenda := rfl
@[simp] theorem State.modPo_tickDue (s : State) (p : Nat) (f : Port → Port) : (s.modPo p f).tickDue = s.tickDue := rfl
@[simp] theorem State.modPo_free (s : State) (p : Nat) (f : Port → Port) : (s.modPo p f).free = s.free := rfl
@[simp] theorem State.modPo_wire (s : State) (p : Nat) (f : Port → Port) : (s.modPo p f).wire = s.wire := rfl
@[simp] theorem State.modPo_txid (s : State) (p : Nat) (f : Port → Port) : (s.modPo p f).txid = s.txid := rfl
@[simp] theorem State.modPo_crossed (s : State) (p : Nat) (f : Port → Port) : (s.modPo p f).crossed = s.crossed := rfl

/-! ### modRe: a reactor that does not exist is not created -/

@[simp] theorem State.modRe_mem (s : State) (r : Nat) (f : Reactor → Reactor) : (s.modRe r f).mem = s.mem := by
  unfold State.modRe; split <;> rfl
@[simp] theorem State.modRe_poison (s : State) (r : Nat) (f : Reactor → Reactor) : (s.modRe r f).poison = s.poison := by
  unfold State.modRe; split <;> rfl
@[simp] theorem State.modRe_flips (s : State) (r : Nat) (f : Reactor → Reactor) : (s.modRe r f).flips = s.flips := by
  unfold State.modRe; split <;> rfl
@[simp] theorem State.modRe_elided (s : State) (r : Nat) (f : Reactor → Reactor) : (s.modRe r f).elided = s.elided := by
  unfold State.modRe; split <;> rfl
@[simp] theorem State.modRe_lostMeta (s : State) (r : Nat) (f : Reactor → Reactor) : (s.modRe r f).lostMeta = s.lostMeta := by
  unfold State.modRe; split <;> rfl
@[simp] theorem State.modRe_cached (s : State) (r : Nat) (f : Reactor → Reactor) : (s.modRe r f).cached = s.cached := by
  unfold State.modRe; split <;> rfl
@[simp] theorem State.modRe_thr (s : State) (r : Nat) (f : Reactor → Reactor) : (s.modRe r f).thr = s.thr := by
  unfold State.modRe; split <;> rfl
@[simp] theorem State.modRe_core (s : State) (r : Nat) (f : Reactor → Reactor) : (s.modRe r f).core = s.core := by
  unfold State.modRe; split <;> rfl
@[simp] theorem State.modRe_clu (s : State) (r : Nat) (f : Reactor → Reactor) : (s.modRe r f).clu = s.clu := by
  unfold State.modRe; split <;> rfl
@[simp] theorem State.modRe_bh (s : State) (r : Nat) (f : Reactor → Reactor) : (s.modRe r f).bh = s.bh := by
  unfold State.modRe; split <;> rfl
@[simp] theorem State.modRe_dev (s : State) (r : Nat) (f : Reactor → Reactor) : (s.modRe r f).dev = s.dev := by
  unfold State.modRe; split <;> rfl
@[simp] theorem State.modRe_part (s : State) (r : Nat) (f : Reactor → Reactor) : (s.modRe r f).part = s.part := by
  unfold State.modRe; split <;> rfl
@[simp] theorem State.modRe_link (s : State) (r : Nat) (f : Reactor → Reactor) : (s.modRe r f).link = s.link := by
  unfold State.modRe; split <;> rfl
@[simp] theorem State.modRe_sw (s : State) (r : Nat) (f : Reactor → Reactor) : (s.modRe r f).sw = s.sw := by
  unfold State.modRe; split <;> rfl
@[simp] theorem State.modRe_flight (s : State) (r : Nat) (f : Reactor → Reactor) : (s.modRe r f).flight = s.flight := by
  unfold State.modRe; split <;> rfl
@[simp] theorem State.modRe_nextId (s : State) (r : Nat) (f : Reactor → Reactor) : (s.modRe r f).nextId = s.nextId := by
  unfold State.modRe; split <;> rfl
@[simp] theorem State.modRe_cur (s : State) (r : Nat) (f : Reactor → Reactor) : (s.modRe r f).cur = s.cur := by
  unfold State.modRe; split <;> rfl
@[simp] theorem State.modRe_agenda (s : State) (r : Nat) (f : Reactor → Reactor) : (s.modRe r f).agenda = s.agenda := by
  unfold State.modRe; split <;> rfl
@[simp] theorem State.modRe_tickDue (s : State) (r : Nat) (f : Reactor → Reactor) : (s.modRe r f).tickDue = s.tickDue := by
  unfold State.modRe; split <;> rfl
@[simp] theorem State.modRe_free (s : State) (r : Nat) (f : Reactor → Reactor) : (s.modRe r f).free = s.free := by
  unfold State.modRe; split <;> rfl
@[simp] theorem State.modRe_wire (s : State) (r : Nat) (f : Reactor → Reactor) : (s.modRe r f).wire = s.wire := by
  unfold State.modRe; split <;> rfl
@[simp] theorem State.modRe_txid (s : State) (r : Nat) (f : Reactor → Reactor) : (s.modRe r f).txid = s.txid := by
  unfold State.modRe; split <;> rfl
@[simp] theorem State.modRe_crossed (s : State) (r : Nat) (f : Reactor → Reactor) : (s.modRe r f).crossed = s.crossed := by
  unfold State.modRe; split <;> rfl

/-! ### emit -/

@[simp] theorem State.emit_mem (s : State) (x : Flight) : (s.emit x).mem = s.mem := rfl
@[simp] theorem State.emit_poison (s : State) (x : Flight) : (s.emit x).poison = s.poison := rfl
@[simp] theorem State.emit_flips (s : State) (x : Flight) : (s.emit x).flips = s.flips := rfl
@[simp] theorem State.emit_elided (s : State) (x : Flight) : (s.emit x).elided = s.elided := rfl
@[simp] theorem State.emit_lostMeta (s : State) (x : Flight) : (s.emit x).lostMeta = s.lostMeta := rfl
@[simp] theorem State.emit_cached (s : State) (x : Flight) : (s.emit x).cached = s.cached := rfl
@[simp] theorem State.emit_thr (s : State) (x : Flight) : (s.emit x).thr = s.thr := rfl
@[simp] theorem State.emit_core (s : State) (x : Flight) : (s.emit x).core = s.core := rfl
@[simp] theorem State.emit_clu (s : State) (x : Flight) : (s.emit x).clu = s.clu := rfl
@[simp] theorem State.emit_reac (s : State) (x : Flight) : (s.emit x).reac = s.reac := rfl
@[simp] theorem State.emit_bh (s : State) (x : Flight) : (s.emit x).bh = s.bh := rfl
@[simp] theorem State.emit_dev (s : State) (x : Flight) : (s.emit x).dev = s.dev := rfl
@[simp] theorem State.emit_part (s : State) (x : Flight) : (s.emit x).part = s.part := rfl
@[simp] theorem State.emit_link (s : State) (x : Flight) : (s.emit x).link = s.link := rfl
@[simp] theorem State.emit_sw (s : State) (x : Flight) : (s.emit x).sw = s.sw := rfl
@[simp] theorem State.emit_flight (s : State) (x : Flight) : (s.emit x).flight = s.flight ++ [(s.nextId, x)] := rfl
@[simp] theorem State.emit_nextId (s : State) (x : Flight) : (s.emit x).nextId = s.nextId + 1 := rfl
@[simp] theorem State.emit_cur (s : State) (x : Flight) : (s.emit x).cur = s.cur := rfl
@[simp] theorem State.emit_agenda (s : State) (x : Flight) : (s.emit x).agenda = s.agenda := rfl
@[simp] theorem State.emit_tickDue (s : State) (x : Flight) : (s.emit x).tickDue = s.tickDue := rfl
@[simp] theorem State.emit_free (s : State) (x : Flight) : (s.emit x).free = s.free := rfl
@[simp] theorem State.emit_wire (s : State) (x : Flight) : (s.emit x).wire = s.wire := rfl
@[simp] theorem State.emit_txid (s : State) (x : Flight) : (s.emit x).txid = s.txid := rfl
@[simp] theorem State.emit_crossed (s : State) (x : Flight) : (s.emit x).crossed = s.crossed := rfl

/-! ### setFl -/

@[simp] theorem State.setFl_mem (s : State) (id : Nat) (x : Flight) : (s.setFl id x).mem = s.mem := rfl
@[simp] theorem State.setFl_poison (s : State) (id : Nat) (x : Flight) : (s.setFl id x).poison = s.poison := rfl
@[simp] theorem State.setFl_flips (s : State) (id : Nat) (x : Flight) : (s.setFl id x).flips = s.flips := rfl
@[simp] theorem State.setFl_elided (s : State) (id : Nat) (x : Flight) : (s.setFl id x).elided = s.elided := rfl
@[simp] theorem State.setFl_lostMeta (s : State) (id : Nat) (x : Flight) : (s.setFl id x).lostMeta = s.lostMeta := rfl
@[simp] theorem State.setFl_cached (s : State) (id : Nat) (x : Flight) : (s.setFl id x).cached = s.cached := rfl
@[simp] theorem State.setFl_thr (s : State) (id : Nat) (x : Flight) : (s.setFl id x).thr = s.thr := rfl
@[simp] theorem State.setFl_core (s : State) (id : Nat) (x : Flight) : (s.setFl id x).core = s.core := rfl
@[simp] theorem State.setFl_clu (s : State) (id : Nat) (x : Flight) : (s.setFl id x).clu = s.clu := rfl
@[simp] theorem State.setFl_reac (s : State) (id : Nat) (x : Flight) : (s.setFl id x).reac = s.reac := rfl
@[simp] theorem State.setFl_bh (s : State) (id : Nat) (x : Flight) : (s.setFl id x).bh = s.bh := rfl
@[simp] theorem State.setFl_dev (s : State) (id : Nat) (x : Flight) : (s.setFl id x).dev = s.dev := rfl
@[simp] theorem State.setFl_part (s : State) (id : Nat) (x : Flight) : (s.setFl id x).part = s.part := rfl
@[simp] theorem State.setFl_link (s : State) (id : Nat) (x : Flight) : (s.setFl id x).link = s.link := rfl
@[simp] theorem State.setFl_sw (s : State) (id : Nat) (x : Flight) : (s.setFl id x).sw = s.sw := rfl
@[simp] theorem State.setFl_flight (s : State) (id : Nat) (x : Flight) : (s.setFl id x).flight = s.flight.map fun e => if e.1 = id then (id, x) else e := rfl
@[simp] theorem State.setFl_nextId (s : State) (id : Nat) (x : Flight) : (s.setFl id x).nextId = s.nextId := rfl
@[simp] theorem State.setFl_cur (s : State) (id : Nat) (x : Flight) : (s.setFl id x).cur = s.cur := rfl
@[simp] theorem State.setFl_agenda (s : State) (id : Nat) (x : Flight) : (s.setFl id x).agenda = s.agenda := rfl
@[simp] theorem State.setFl_tickDue (s : State) (id : Nat) (x : Flight) : (s.setFl id x).tickDue = s.tickDue := rfl
@[simp] theorem State.setFl_free (s : State) (id : Nat) (x : Flight) : (s.setFl id x).free = s.free := rfl
@[simp] theorem State.setFl_wire (s : State) (id : Nat) (x : Flight) : (s.setFl id x).wire = s.wire := rfl
@[simp] theorem State.setFl_txid (s : State) (id : Nat) (x : Flight) : (s.setFl id x).txid = s.txid := rfl
@[simp] theorem State.setFl_crossed (s : State) (id : Nat) (x : Flight) : (s.setFl id x).crossed = s.crossed := rfl

/-! ### endFl -/

@[simp] theorem State.endFl_mem (s : State) (id : Nat) : (s.endFl id).mem = s.mem := rfl
@[simp] theorem State.endFl_poison (s : State) (id : Nat) : (s.endFl id).poison = s.poison := rfl
@[simp] theorem State.endFl_flips (s : State) (id : Nat) : (s.endFl id).flips = s.flips := rfl
@[simp] theorem State.endFl_elided (s : State) (id : Nat) : (s.endFl id).elided = s.elided := rfl
@[simp] theorem State.endFl_lostMeta (s : State) (id : Nat) : (s.endFl id).lostMeta = s.lostMeta := rfl
@[simp] theorem State.endFl_cached (s : State) (id : Nat) : (s.endFl id).cached = s.cached := rfl
@[simp] theorem State.endFl_thr (s : State) (id : Nat) : (s.endFl id).thr = s.thr := rfl
@[simp] theorem State.endFl_core (s : State) (id : Nat) : (s.endFl id).core = s.core := rfl
@[simp] theorem State.endFl_clu (s : State) (id : Nat) : (s.endFl id).clu = s.clu := rfl
@[simp] theorem State.endFl_reac (s : State) (id : Nat) : (s.endFl id).reac = s.reac := rfl
@[simp] theorem State.endFl_bh (s : State) (id : Nat) : (s.endFl id).bh = s.bh := rfl
@[simp] theorem State.endFl_dev (s : State) (id : Nat) : (s.endFl id).dev = s.dev := rfl
@[simp] theorem State.endFl_part (s : State) (id : Nat) : (s.endFl id).part = s.part := rfl
@[simp] theorem State.endFl_link (s : State) (id : Nat) : (s.endFl id).link = s.link := rfl
@[simp] theorem State.endFl_sw (s : State) (id : Nat) : (s.endFl id).sw = s.sw := rfl
@[simp] theorem State.endFl_flight (s : State) (id : Nat) : (s.endFl id).flight = s.flight.filter fun e => e.1 != id := rfl
@[simp] theorem State.endFl_nextId (s : State) (id : Nat) : (s.endFl id).nextId = s.nextId := rfl
@[simp] theorem State.endFl_cur (s : State) (id : Nat) : (s.endFl id).cur = s.cur := rfl
@[simp] theorem State.endFl_agenda (s : State) (id : Nat) : (s.endFl id).agenda = s.agenda := rfl
@[simp] theorem State.endFl_tickDue (s : State) (id : Nat) : (s.endFl id).tickDue = s.tickDue := rfl
@[simp] theorem State.endFl_free (s : State) (id : Nat) : (s.endFl id).free = s.free := rfl
@[simp] theorem State.endFl_wire (s : State) (id : Nat) : (s.endFl id).wire = s.wire := rfl
@[simp] theorem State.endFl_txid (s : State) (id : Nat) : (s.endFl id).txid = s.txid := rfl
@[simp] theorem State.endFl_crossed (s : State) (id : Nat) : (s.endFl id).crossed = s.crossed := rfl

/-! ### rawWrite -/

@[simp] theorem State.rawWrite_mem (s : State) (a : Nat) (bs : List Byte) : (s.rawWrite a bs).mem = Memory.wrs s.mem a bs := rfl
@[simp] theorem State.rawWrite_poison (s : State) (a : Nat) (bs : List Byte) : (s.rawWrite a bs).poison = s.poison := rfl
@[simp] theorem State.rawWrite_flips (s : State) (a : Nat) (bs : List Byte) : (s.rawWrite a bs).flips = s.flips := rfl
@[simp] theorem State.rawWrite_elided (s : State) (a : Nat) (bs : List Byte) : (s.rawWrite a bs).elided = s.elided := rfl
@[simp] theorem State.rawWrite_lostMeta (s : State) (a : Nat) (bs : List Byte) : (s.rawWrite a bs).lostMeta = s.lostMeta := rfl
@[simp] theorem State.rawWrite_cached (s : State) (a : Nat) (bs : List Byte) : (s.rawWrite a bs).cached = s.cached := rfl
@[simp] theorem State.rawWrite_thr (s : State) (a : Nat) (bs : List Byte) : (s.rawWrite a bs).thr = s.thr := rfl
@[simp] theorem State.rawWrite_core (s : State) (a : Nat) (bs : List Byte) : (s.rawWrite a bs).core = s.core := rfl
@[simp] theorem State.rawWrite_clu (s : State) (a : Nat) (bs : List Byte) : (s.rawWrite a bs).clu = s.clu := rfl
@[simp] theorem State.rawWrite_reac (s : State) (a : Nat) (bs : List Byte) : (s.rawWrite a bs).reac = s.reac := rfl
@[simp] theorem State.rawWrite_bh (s : State) (a : Nat) (bs : List Byte) : (s.rawWrite a bs).bh = s.bh := rfl
@[simp] theorem State.rawWrite_dev (s : State) (a : Nat) (bs : List Byte) : (s.rawWrite a bs).dev = s.dev := rfl
@[simp] theorem State.rawWrite_part (s : State) (a : Nat) (bs : List Byte) : (s.rawWrite a bs).part = s.part := rfl
@[simp] theorem State.rawWrite_link (s : State) (a : Nat) (bs : List Byte) : (s.rawWrite a bs).link = s.link := rfl
@[simp] theorem State.rawWrite_sw (s : State) (a : Nat) (bs : List Byte) : (s.rawWrite a bs).sw = s.sw := rfl
@[simp] theorem State.rawWrite_flight (s : State) (a : Nat) (bs : List Byte) : (s.rawWrite a bs).flight = s.flight := rfl
@[simp] theorem State.rawWrite_nextId (s : State) (a : Nat) (bs : List Byte) : (s.rawWrite a bs).nextId = s.nextId := rfl
@[simp] theorem State.rawWrite_cur (s : State) (a : Nat) (bs : List Byte) : (s.rawWrite a bs).cur = s.cur := rfl
@[simp] theorem State.rawWrite_agenda (s : State) (a : Nat) (bs : List Byte) : (s.rawWrite a bs).agenda = s.agenda := rfl
@[simp] theorem State.rawWrite_tickDue (s : State) (a : Nat) (bs : List Byte) : (s.rawWrite a bs).tickDue = s.tickDue := rfl
@[simp] theorem State.rawWrite_free (s : State) (a : Nat) (bs : List Byte) : (s.rawWrite a bs).free = s.free := rfl
@[simp] theorem State.rawWrite_wire (s : State) (a : Nat) (bs : List Byte) : (s.rawWrite a bs).wire = s.wire := rfl
@[simp] theorem State.rawWrite_txid (s : State) (a : Nat) (bs : List Byte) : (s.rawWrite a bs).txid = s.txid := rfl
@[simp] theorem State.rawWrite_crossed (s : State) (a : Nat) (bs : List Byte) : (s.rawWrite a bs).crossed = s.crossed := rfl

/-! ### put -/

@[simp] theorem State.put_mem (s : State) (a : Nat) (bs : List Byte) : (s.put a bs).mem = Memory.wrs s.mem a bs := rfl
@[simp] theorem State.put_cached (s : State) (a : Nat) (bs : List Byte) : (s.put a bs).cached = s.cached := rfl
@[simp] theorem State.put_thr (s : State) (a : Nat) (bs : List Byte) : (s.put a bs).thr = s.thr := rfl
@[simp] theorem State.put_core (s : State) (a : Nat) (bs : List Byte) : (s.put a bs).core = s.core := rfl
@[simp] theorem State.put_clu (s : State) (a : Nat) (bs : List Byte) : (s.put a bs).clu = s.clu := rfl
@[simp] theorem State.put_reac (s : State) (a : Nat) (bs : List Byte) : (s.put a bs).reac = s.reac := rfl
@[simp] theorem State.put_bh (s : State) (a : Nat) (bs : List Byte) : (s.put a bs).bh = s.bh := rfl
@[simp] theorem State.put_dev (s : State) (a : Nat) (bs : List Byte) : (s.put a bs).dev = s.dev := rfl
@[simp] theorem State.put_part (s : State) (a : Nat) (bs : List Byte) : (s.put a bs).part = s.part := rfl
@[simp] theorem State.put_link (s : State) (a : Nat) (bs : List Byte) : (s.put a bs).link = s.link := rfl
@[simp] theorem State.put_sw (s : State) (a : Nat) (bs : List Byte) : (s.put a bs).sw = s.sw := rfl
@[simp] theorem State.put_flight (s : State) (a : Nat) (bs : List Byte) : (s.put a bs).flight = s.flight := rfl
@[simp] theorem State.put_nextId (s : State) (a : Nat) (bs : List Byte) : (s.put a bs).nextId = s.nextId := rfl
@[simp] theorem State.put_cur (s : State) (a : Nat) (bs : List Byte) : (s.put a bs).cur = s.cur := rfl
@[simp] theorem State.put_agenda (s : State) (a : Nat) (bs : List Byte) : (s.put a bs).agenda = s.agenda := rfl
@[simp] theorem State.put_tickDue (s : State) (a : Nat) (bs : List Byte) : (s.put a bs).tickDue = s.tickDue := rfl
@[simp] theorem State.put_free (s : State) (a : Nat) (bs : List Byte) : (s.put a bs).free = s.free := rfl
@[simp] theorem State.put_wire (s : State) (a : Nat) (bs : List Byte) : (s.put a bs).wire = s.wire := rfl
@[simp] theorem State.put_txid (s : State) (a : Nat) (bs : List Byte) : (s.put a bs).txid = s.txid := rfl
@[simp] theorem State.put_crossed (s : State) (a : Nat) (bs : List Byte) : (s.put a bs).crossed = s.crossed := rfl

/-! ### advance -/

@[simp] theorem advance_mem (n : Nat) (s : State) : (advance n s).mem = s.mem := rfl
@[simp] theorem advance_poison (n : Nat) (s : State) : (advance n s).poison = s.poison := rfl
@[simp] theorem advance_flips (n : Nat) (s : State) : (advance n s).flips = s.flips := rfl
@[simp] theorem advance_elided (n : Nat) (s : State) : (advance n s).elided = s.elided := rfl
@[simp] theorem advance_lostMeta (n : Nat) (s : State) : (advance n s).lostMeta = s.lostMeta := rfl
@[simp] theorem advance_cached (n : Nat) (s : State) : (advance n s).cached = s.cached := rfl
@[simp] theorem advance_core (n : Nat) (s : State) : (advance n s).core = s.core := rfl
@[simp] theorem advance_clu (n : Nat) (s : State) : (advance n s).clu = s.clu := rfl
@[simp] theorem advance_reac (n : Nat) (s : State) : (advance n s).reac = s.reac := rfl
@[simp] theorem advance_bh (n : Nat) (s : State) : (advance n s).bh = s.bh := rfl
@[simp] theorem advance_dev (n : Nat) (s : State) : (advance n s).dev = s.dev := rfl
@[simp] theorem advance_part (n : Nat) (s : State) : (advance n s).part = s.part := rfl
@[simp] theorem advance_link (n : Nat) (s : State) : (advance n s).link = s.link := rfl
@[simp] theorem advance_sw (n : Nat) (s : State) : (advance n s).sw = s.sw := rfl
@[simp] theorem advance_flight (n : Nat) (s : State) : (advance n s).flight = s.flight := rfl
@[simp] theorem advance_nextId (n : Nat) (s : State) : (advance n s).nextId = s.nextId := rfl
@[simp] theorem advance_cur (n : Nat) (s : State) : (advance n s).cur = s.cur := rfl
@[simp] theorem advance_agenda (n : Nat) (s : State) : (advance n s).agenda = s.agenda := rfl
@[simp] theorem advance_tickDue (n : Nat) (s : State) : (advance n s).tickDue = s.tickDue := rfl
@[simp] theorem advance_free (n : Nat) (s : State) : (advance n s).free = s.free := rfl
@[simp] theorem advance_wire (n : Nat) (s : State) : (advance n s).wire = s.wire := rfl
@[simp] theorem advance_txid (n : Nat) (s : State) : (advance n s).txid = s.txid := rfl
@[simp] theorem advance_crossed (n : Nat) (s : State) : (advance n s).crossed = s.crossed := rfl

/-! ### jump -/

@[simp] theorem jump_mem (a : W64) (s : State) : (jump a s).mem = s.mem := rfl
@[simp] theorem jump_poison (a : W64) (s : State) : (jump a s).poison = s.poison := rfl
@[simp] theorem jump_flips (a : W64) (s : State) : (jump a s).flips = s.flips := rfl
@[simp] theorem jump_elided (a : W64) (s : State) : (jump a s).elided = s.elided := rfl
@[simp] theorem jump_lostMeta (a : W64) (s : State) : (jump a s).lostMeta = s.lostMeta := rfl
@[simp] theorem jump_cached (a : W64) (s : State) : (jump a s).cached = s.cached := rfl
@[simp] theorem jump_core (a : W64) (s : State) : (jump a s).core = s.core := rfl
@[simp] theorem jump_clu (a : W64) (s : State) : (jump a s).clu = s.clu := rfl
@[simp] theorem jump_reac (a : W64) (s : State) : (jump a s).reac = s.reac := rfl
@[simp] theorem jump_bh (a : W64) (s : State) : (jump a s).bh = s.bh := rfl
@[simp] theorem jump_dev (a : W64) (s : State) : (jump a s).dev = s.dev := rfl
@[simp] theorem jump_part (a : W64) (s : State) : (jump a s).part = s.part := rfl
@[simp] theorem jump_link (a : W64) (s : State) : (jump a s).link = s.link := rfl
@[simp] theorem jump_sw (a : W64) (s : State) : (jump a s).sw = s.sw := rfl
@[simp] theorem jump_flight (a : W64) (s : State) : (jump a s).flight = s.flight := rfl
@[simp] theorem jump_nextId (a : W64) (s : State) : (jump a s).nextId = s.nextId := rfl
@[simp] theorem jump_cur (a : W64) (s : State) : (jump a s).cur = s.cur := rfl
@[simp] theorem jump_agenda (a : W64) (s : State) : (jump a s).agenda = s.agenda := rfl
@[simp] theorem jump_tickDue (a : W64) (s : State) : (jump a s).tickDue = s.tickDue := rfl
@[simp] theorem jump_free (a : W64) (s : State) : (jump a s).free = s.free := rfl
@[simp] theorem jump_wire (a : W64) (s : State) : (jump a s).wire = s.wire := rfl
@[simp] theorem jump_txid (a : W64) (s : State) : (jump a s).txid = s.txid := rfl
@[simp] theorem jump_crossed (a : W64) (s : State) : (jump a s).crossed = s.crossed := rfl

/-! ### Units read back -/

@[simp] theorem State.th_modTh (s : State) (u : Nat) (f : Thread → Thread) : (s.modTh u f).th u = f (s.th u) :=
  Map.get_set_same ..
theorem State.th_modTh_other {u v : Nat} (h : v ≠ u) (s : State) (f : Thread → Thread) : (s.modTh u f).th v = s.th v :=
  Map.get_set_other _ h ..
@[simp] theorem State.me_modMe (s : State) (f : Thread → Thread) : (s.modMe f).me = f s.me := Map.get_set_same ..
@[simp] theorem State.co_modCo (s : State) (c : Nat) (f : CoreSt → CoreSt) : (s.modCo c f).co c = f (s.co c) :=
  Map.get_set_same ..
theorem State.co_modCo_other {c v : Nat} (h : v ≠ c) (s : State) (f : CoreSt → CoreSt) : (s.modCo c f).co v = s.co v :=
  Map.get_set_other _ h ..
@[simp] theorem State.cl_modCl (s : State) (c : Nat) (f : Cluster → Cluster) : (s.modCl c f).cl c = f (s.cl c) :=
  Map.get_set_same ..
theorem State.cl_modCl_other {c v : Nat} (h : v ≠ c) (s : State) (f : Cluster → Cluster) : (s.modCl c f).cl v = s.cl v :=
  Map.get_set_other _ h ..
@[simp] theorem State.bu_modBu (s : State) (b : Nat) (f : Bulkhead → Bulkhead) : (s.modBu b f).bu b = f (s.bu b) :=
  Map.get_set_same ..
theorem State.bu_modBu_other {b v : Nat} (h : v ≠ b) (s : State) (f : Bulkhead → Bulkhead) : (s.modBu b f).bu v = s.bu v :=
  Map.get_set_other _ h ..
@[simp] theorem State.de_modDe (s : State) (d : Nat) (f : Device → Device) : (s.modDe d f).de d = f (s.de d) :=
  Map.get_set_same ..
theorem State.de_modDe_other {d v : Nat} (h : v ≠ d) (s : State) (f : Device → Device) : (s.modDe d f).de v = s.de v :=
  Map.get_set_other _ h ..
@[simp] theorem State.pt_modPt (s : State) (p : Nat) (f : Partition → Partition) : (s.modPt p f).pt p = f (s.pt p) :=
  Map.get_set_same ..
@[simp] theorem State.li_modLi (s : State) (l : Nat) (f : Link → Link) : (s.modLi l f).li l = f (s.li l) :=
  Map.get_set_same ..
@[simp] theorem State.swi_modSw (s : State) (w : Nat) (f : Switch → Switch) : (s.modSw w f).swi w = f (s.swi w) :=
  Map.get_set_same ..

/-- A change of a reactor that exists reads back. -/
theorem State.re_modRe {s : State} {r : Nat} (h : s.hasRe r) (f : Reactor → Reactor) : (s.modRe r f).re r = f (s.re r) := by
  unfold State.modRe
  rw [if_pos h]
  exact Map.get_set_same ..

/-- Two changes of one thread set are one. -/
theorem State.modTh_modTh (s : State) (u : Nat) (f g : Thread → Thread) :
    (s.modTh u f).modTh u g = s.modTh u fun t => g (f t) := by
  simp only [State.modTh, State.setTh, State.th, Map.get_set_same, Map.set_set]

/-- Two changes of the issuing thread set are one. -/
theorem State.modMe_modMe (s : State) (f g : Thread → Thread) : (s.modMe f).modMe g = s.modMe fun t => g (f t) :=
  State.modTh_modTh ..

end Sys2Proof.Machine
end

