-- ==== Sys2Proof/Laws/Memory.lean ====
section
/-! SUPPORT. Laws/Memory.lean: memory reads back what was written, other bytes keep their values, and every memory
operation keeps the canonical form. -/

namespace Sys2Proof.Machine

/-- The canonical form, one cell at a time: the cell's byte is not the empty byte, every later address is higher, and the rest
is canonical. -/
theorem Memory.wf_cons (a : Nat) (v : Byte) (m : List Host.Cell) :
    Memory.wf ((a, v) :: m) = true ↔ v ≠ emptyByte ∧ (∀ e ∈ m, a < e.1) ∧ Memory.wf m = true := by
  induction m generalizing a v with
  | nil => simp [Memory.wf]
  | cons e m ih =>
    obtain ⟨b, w⟩ := e
    simp only [Memory.wf, Bool.and_eq_true, bne_iff_ne, decide_eq_true_eq, List.mem_cons, forall_eq_or_imp]
    constructor
    · rintro ⟨⟨hv, hab⟩, hw⟩
      exact ⟨hv, ⟨hab, fun e he => Nat.lt_trans hab (((ih b w).1 hw).2.1 e he)⟩, hw⟩
    · rintro ⟨hv, ⟨hab, -⟩, hw⟩
      exact ⟨⟨hv, hab⟩, hw⟩

/-- An address below every listed one reads as the empty byte. -/
theorem Memory.rd_below {m : List Host.Cell} {a : Nat} (h : ∀ e ∈ m, a < e.1) : Memory.rd m a = emptyByte := by
  induction m with
  | nil => rfl
  | cons e m ih =>
    obtain ⟨k, v⟩ := e
    simp only [List.mem_cons, forall_eq_or_imp] at h
    rw [Memory.rd, if_neg (by omega), ih h.2]

/-- A byte that has been written reads back. -/
theorem Memory.rd_wr_same {m : List Host.Cell} (h : Memory.wf m = true) (a : Nat) (x : Byte) :
    Memory.rd (Memory.wr m a x) a = x := by
  induction m with
  | nil =>
    simp only [Memory.wr]
    split
    · simp_all [Memory.rd]
    · simp [Memory.rd]
  | cons e m ih =>
    obtain ⟨k, v⟩ := e
    obtain ⟨-, hk, hm⟩ := (Memory.wf_cons k v m).1 h
    simp only [Memory.wr]
    split
    · rename_i hak
      split
      · subst_vars
        exact Memory.rd_below (by simpa using ⟨hak, fun b v he => Nat.lt_trans hak (hk _ he)⟩)
      · simp [Memory.rd]
    · split
      · subst_vars
        split
        · subst_vars
          exact Memory.rd_below hk
        · simp [Memory.rd]
      · rename_i h1 h2
        rw [Memory.rd, if_neg h2, ih hm]

/-- A write leaves every other byte as it was. -/
theorem Memory.rd_wr_other (m : List Host.Cell) {a b : Nat} (h : b ≠ a) (x : Byte) :
    Memory.rd (Memory.wr m a x) b = Memory.rd m b := by
  induction m with
  | nil =>
    simp only [Memory.wr]
    split
    · rfl
    · simp [Memory.rd, h]
  | cons e m ih =>
    obtain ⟨k, v⟩ := e
    simp only [Memory.wr]
    split
    · split
      · rfl
      · simp [Memory.rd, h]
    · split
      · subst_vars
        split <;> simp [Memory.rd, h]
      · simp only [Memory.rd, ih]

/-- A written list holds addresses of the old one and the written address only. -/
theorem Memory.mem_wr {m : List Host.Cell} {a : Nat} {x : Byte} {e : Host.Cell} (h : e ∈ Memory.wr m a x) :
    e.1 = a ∨ e ∈ m := by
  induction m with
  | nil =>
    simp only [Memory.wr] at h
    split at h <;> simp_all
  | cons c m ih =>
    obtain ⟨k, v⟩ := c
    simp only [Memory.wr] at h
    split at h
    · split at h
      · exact .inr h
      · rcases List.mem_cons.1 h with rfl | h
        · exact .inl rfl
        · exact .inr h
    · split at h
      · split at h
        · exact .inr (List.mem_cons_of_mem _ h)
        · rcases List.mem_cons.1 h with rfl | h
          · exact .inl rfl
          · exact .inr (List.mem_cons_of_mem _ h)
      · rcases List.mem_cons.1 h with rfl | h
        · exact .inr List.mem_cons_self
        · exact (ih h).imp id (List.mem_cons_of_mem _)

/-- A write of one byte keeps the canonical form. -/
theorem Memory.wr_wf {m : List Host.Cell} (h : Memory.wf m = true) (a : Nat) (x : Byte) :
    Memory.wf (Memory.wr m a x) = true := by
  induction m with
  | nil =>
    simp only [Memory.wr]
    split
    · rfl
    · simpa [Memory.wf]
  | cons e m ih =>
    obtain ⟨k, v⟩ := e
    obtain ⟨hv, hk, hm⟩ := (Memory.wf_cons k v m).1 h
    simp only [Memory.wr]
    split
    · rename_i hak
      split
      · exact h
      · exact (Memory.wf_cons ..).2 ⟨‹_›, by simpa using ⟨hak, fun b v he => Nat.lt_trans hak (hk _ he)⟩, h⟩
    · split
      · subst_vars
        split
        · exact hm
        · exact (Memory.wf_cons ..).2 ⟨‹_›, hk, hm⟩
      · refine (Memory.wf_cons ..).2 ⟨hv, fun e he => ?_, ih hm⟩
        rcases Memory.mem_wr he with h' | h'
        · omega
        · exact hk _ h'

/-- A write of many bytes keeps the canonical form. -/
theorem Memory.wrs_wf {m : List Host.Cell} (h : Memory.wf m = true) (a : Nat) (bs : List Byte) :
    Memory.wf (Memory.wrs m a bs) = true := by
  induction bs generalizing m a with
  | nil => exact h
  | cons b bs ih => exact ih (Memory.wr_wf h a b) (a + 1)

/-- Dropping cells keeps the canonical form. -/
theorem Memory.filter_wf {m : List Host.Cell} (h : Memory.wf m = true) (p : Host.Cell → Bool) :
    Memory.wf (m.filter p) = true := by
  induction m with
  | nil => rfl
  | cons e m ih =>
    obtain ⟨k, v⟩ := e
    obtain ⟨hv, hk, hm⟩ := (Memory.wf_cons k v m).1 h
    rw [List.filter_cons]
    split
    · exact (Memory.wf_cons ..).2 ⟨hv, fun e he => hk e (List.mem_filter.1 he).1, ih hm⟩
    · exact ih hm

/-- Bytes outside a written range keep their values. -/
theorem Memory.rd_wrs_other (m : List Host.Cell) {a b : Nat} (bs : List Byte) (h : b < a ∨ a + bs.length ≤ b) :
    Memory.rd (Memory.wrs m a bs) b = Memory.rd m b := by
  induction bs generalizing m a with
  | nil => rfl
  | cons c bs ih =>
    simp only [List.length_cons] at h
    rw [Memory.wrs, ih _ (by omega), Memory.rd_wr_other _ (by omega)]

/-- A byte of a written range reads back. -/
theorem Memory.rd_wrs_same {m : List Host.Cell} (h : Memory.wf m = true) (a : Nat) (bs : List Byte) {i : Nat}
    (hi : i < bs.length) : Memory.rd (Memory.wrs m a bs) (a + i) = bs[i] := by
  induction bs generalizing m a i with
  | nil => simp at hi
  | cons c bs ih =>
    rw [Memory.wrs]
    match i with
    | 0 => rw [Memory.rd_wrs_other _ _ (by omega)]; exact Memory.rd_wr_same h a c
    | i + 1 =>
      have := ih (Memory.wr_wf h a c) (a + 1) (i := i) (by simpa using hi)
      rw [show a + (i + 1) = a + 1 + i by omega, this]
      rfl

/-- A raw write keeps the canonical form. -/
theorem State.rawWrite_wf {s : State} (h : Memory.wf s.mem = true) (a : Nat) (bs : List Byte) :
    Memory.wf (s.rawWrite a bs).mem = true := Memory.wrs_wf h a bs

@[simp] theorem Memory.rds_length (m : List Host.Cell) (a n : Nat) : (Memory.rds m a n).length = n := by
  simp [Memory.rds]

@[simp] theorem leBytes_length (n v : Nat) : (leBytes n v).length = n := by
  induction n generalizing v with
  | zero => rfl
  | succ n ih => simp [leBytes, ih]

/-- A number laid out and read back (R7). -/
theorem leNat_leBytes (n v : Nat) : leNat (leBytes n v) = v % 256 ^ n := by
  induction n generalizing v with
  | zero => simp [leBytes, leNat, Nat.mod_one]
  | succ n ih =>
    simp only [leBytes, leNat, ih, BitVec.toNat_ofNat]
    rw [show (256 : Nat) ^ (n + 1) = 256 * 256 ^ n from Nat.pow_succ' .., Nat.mod_mul]

end Sys2Proof.Machine
end

