-- ==== Sys2Proof/Laws/Units.lean ====
section
/-! SUPPORT. Laws/Units.lean: an update of one table of the state leaves the units of every other table as they read before. -/

namespace Sys2Proof.Machine

set_option Elab.async false

/-! ### modTh -/

@[simp] theorem State.co_modTh_frame (s : State) (u : Nat) (f : Thread → Thread) (k : Nat) : (s.modTh u f).co k = s.co k := rfl
@[simp] theorem State.cl_modTh_frame (s : State) (u : Nat) (f : Thread → Thread) (k : Nat) : (s.modTh u f).cl k = s.cl k := rfl
@[simp] theorem State.re_modTh_frame (s : State) (u : Nat) (f : Thread → Thread) (k : Nat) : (s.modTh u f).re k = s.re k := rfl
@[simp] theorem State.hasRe_modTh_frame (s : State) (u : Nat) (f : Thread → Thread) (k : Nat) : (s.modTh u f).hasRe k = s.hasRe k := rfl
@[simp] theorem State.bu_modTh_frame (s : State) (u : Nat) (f : Thread → Thread) (k : Nat) : (s.modTh u f).bu k = s.bu k := rfl
@[simp] theorem State.de_modTh_frame (s : State) (u : Nat) (f : Thread → Thread) (k : Nat) : (s.modTh u f).de k = s.de k := rfl
@[simp] theorem State.po_modTh_frame (s : State) (u : Nat) (f : Thread → Thread) (k : Nat) : (s.modTh u f).po k = s.po k := rfl
@[simp] theorem State.pt_modTh_frame (s : State) (u : Nat) (f : Thread → Thread) (k : Nat) : (s.modTh u f).pt k = s.pt k := rfl
@[simp] theorem State.li_modTh_frame (s : State) (u : Nat) (f : Thread → Thread) (k : Nat) : (s.modTh u f).li k = s.li k := rfl
@[simp] theorem State.swi_modTh_frame (s : State) (u : Nat) (f : Thread → Thread) (k : Nat) : (s.modTh u f).swi k = s.swi k := rfl
@[simp] theorem State.flOpt_modTh_frame (s : State) (u : Nat) (f : Thread → Thread) (k : Nat) : (s.modTh u f).fl? k = s.fl? k := rfl

/-! ### modMe -/

@[simp] theorem State.co_modMe_frame (s : State) (f : Thread → Thread) (k : Nat) : (s.modMe f).co k = s.co k := rfl
@[simp] theorem State.cl_modMe_frame (s : State) (f : Thread → Thread) (k : Nat) : (s.modMe f).cl k = s.cl k := rfl
@[simp] theorem State.re_modMe_frame (s : State) (f : Thread → Thread) (k : Nat) : (s.modMe f).re k = s.re k := rfl
@[simp] theorem State.hasRe_modMe_frame (s : State) (f : Thread → Thread) (k : Nat) : (s.modMe f).hasRe k = s.hasRe k := rfl
@[simp] theorem State.bu_modMe_frame (s : State) (f : Thread → Thread) (k : Nat) : (s.modMe f).bu k = s.bu k := rfl
@[simp] theorem State.de_modMe_frame (s : State) (f : Thread → Thread) (k : Nat) : (s.modMe f).de k = s.de k := rfl
@[simp] theorem State.po_modMe_frame (s : State) (f : Thread → Thread) (k : Nat) : (s.modMe f).po k = s.po k := rfl
@[simp] theorem State.pt_modMe_frame (s : State) (f : Thread → Thread) (k : Nat) : (s.modMe f).pt k = s.pt k := rfl
@[simp] theorem State.li_modMe_frame (s : State) (f : Thread → Thread) (k : Nat) : (s.modMe f).li k = s.li k := rfl
@[simp] theorem State.swi_modMe_frame (s : State) (f : Thread → Thread) (k : Nat) : (s.modMe f).swi k = s.swi k := rfl
@[simp] theorem State.flOpt_modMe_frame (s : State) (f : Thread → Thread) (k : Nat) : (s.modMe f).fl? k = s.fl? k := rfl

/-! ### modAct -/

@[simp] theorem State.co_modAct_frame (s : State) (u : Nat) (f : Act → Act) (k : Nat) : (s.modAct u f).co k = s.co k := rfl
@[simp] theorem State.cl_modAct_frame (s : State) (u : Nat) (f : Act → Act) (k : Nat) : (s.modAct u f).cl k = s.cl k := rfl
@[simp] theorem State.re_modAct_frame (s : State) (u : Nat) (f : Act → Act) (k : Nat) : (s.modAct u f).re k = s.re k := rfl
@[simp] theorem State.hasRe_modAct_frame (s : State) (u : Nat) (f : Act → Act) (k : Nat) : (s.modAct u f).hasRe k = s.hasRe k := rfl
@[simp] theorem State.bu_modAct_frame (s : State) (u : Nat) (f : Act → Act) (k : Nat) : (s.modAct u f).bu k = s.bu k := rfl
@[simp] theorem State.de_modAct_frame (s : State) (u : Nat) (f : Act → Act) (k : Nat) : (s.modAct u f).de k = s.de k := rfl
@[simp] theorem State.po_modAct_frame (s : State) (u : Nat) (f : Act → Act) (k : Nat) : (s.modAct u f).po k = s.po k := rfl
@[simp] theorem State.pt_modAct_frame (s : State) (u : Nat) (f : Act → Act) (k : Nat) : (s.modAct u f).pt k = s.pt k := rfl
@[simp] theorem State.li_modAct_frame (s : State) (u : Nat) (f : Act → Act) (k : Nat) : (s.modAct u f).li k = s.li k := rfl
@[simp] theorem State.swi_modAct_frame (s : State) (u : Nat) (f : Act → Act) (k : Nat) : (s.modAct u f).swi k = s.swi k := rfl
@[simp] theorem State.flOpt_modAct_frame (s : State) (u : Nat) (f : Act → Act) (k : Nat) : (s.modAct u f).fl? k = s.fl? k := rfl

/-! ### modCo -/

@[simp] theorem State.th_modCo_frame (s : State) (c : Nat) (f : CoreSt → CoreSt) (k : Nat) : (s.modCo c f).th k = s.th k := rfl
@[simp] theorem State.cl_modCo_frame (s : State) (c : Nat) (f : CoreSt → CoreSt) (k : Nat) : (s.modCo c f).cl k = s.cl k := rfl
@[simp] theorem State.re_modCo_frame (s : State) (c : Nat) (f : CoreSt → CoreSt) (k : Nat) : (s.modCo c f).re k = s.re k := rfl
@[simp] theorem State.hasRe_modCo_frame (s : State) (c : Nat) (f : CoreSt → CoreSt) (k : Nat) : (s.modCo c f).hasRe k = s.hasRe k := rfl
@[simp] theorem State.bu_modCo_frame (s : State) (c : Nat) (f : CoreSt → CoreSt) (k : Nat) : (s.modCo c f).bu k = s.bu k := rfl
@[simp] theorem State.de_modCo_frame (s : State) (c : Nat) (f : CoreSt → CoreSt) (k : Nat) : (s.modCo c f).de k = s.de k := rfl
@[simp] theorem State.po_modCo_frame (s : State) (c : Nat) (f : CoreSt → CoreSt) (k : Nat) : (s.modCo c f).po k = s.po k := rfl
@[simp] theorem State.pt_modCo_frame (s : State) (c : Nat) (f : CoreSt → CoreSt) (k : Nat) : (s.modCo c f).pt k = s.pt k := rfl
@[simp] theorem State.li_modCo_frame (s : State) (c : Nat) (f : CoreSt → CoreSt) (k : Nat) : (s.modCo c f).li k = s.li k := rfl
@[simp] theorem State.swi_modCo_frame (s : State) (c : Nat) (f : CoreSt → CoreSt) (k : Nat) : (s.modCo c f).swi k = s.swi k := rfl
@[simp] theorem State.act_modCo_frame (s : State) (c : Nat) (f : CoreSt → CoreSt) (k : Nat) : (s.modCo c f).act k = s.act k := rfl
@[simp] theorem State.flOpt_modCo_frame (s : State) (c : Nat) (f : CoreSt → CoreSt) (k : Nat) : (s.modCo c f).fl? k = s.fl? k := rfl

/-! ### modCl -/

@[simp] theorem State.th_modCl_frame (s : State) (c : Nat) (f : Cluster → Cluster) (k : Nat) : (s.modCl c f).th k = s.th k := rfl
@[simp] theorem State.co_modCl_frame (s : State) (c : Nat) (f : Cluster → Cluster) (k : Nat) : (s.modCl c f).co k = s.co k := rfl
@[simp] theorem State.re_modCl_frame (s : State) (c : Nat) (f : Cluster → Cluster) (k : Nat) : (s.modCl c f).re k = s.re k := rfl
@[simp] theorem State.hasRe_modCl_frame (s : State) (c : Nat) (f : Cluster → Cluster) (k : Nat) : (s.modCl c f).hasRe k = s.hasRe k := rfl
@[simp] theorem State.bu_modCl_frame (s : State) (c : Nat) (f : Cluster → Cluster) (k : Nat) : (s.modCl c f).bu k = s.bu k := rfl
@[simp] theorem State.de_modCl_frame (s : State) (c : Nat) (f : Cluster → Cluster) (k : Nat) : (s.modCl c f).de k = s.de k := rfl
@[simp] theorem State.po_modCl_frame (s : State) (c : Nat) (f : Cluster → Cluster) (k : Nat) : (s.modCl c f).po k = s.po k := rfl
@[simp] theorem State.pt_modCl_frame (s : State) (c : Nat) (f : Cluster → Cluster) (k : Nat) : (s.modCl c f).pt k = s.pt k := rfl
@[simp] theorem State.li_modCl_frame (s : State) (c : Nat) (f : Cluster → Cluster) (k : Nat) : (s.modCl c f).li k = s.li k := rfl
@[simp] theorem State.swi_modCl_frame (s : State) (c : Nat) (f : Cluster → Cluster) (k : Nat) : (s.modCl c f).swi k = s.swi k := rfl
@[simp] theorem State.act_modCl_frame (s : State) (c : Nat) (f : Cluster → Cluster) (k : Nat) : (s.modCl c f).act k = s.act k := rfl
@[simp] theorem State.flOpt_modCl_frame (s : State) (c : Nat) (f : Cluster → Cluster) (k : Nat) : (s.modCl c f).fl? k = s.fl? k := rfl

/-! ### modRe -/

@[simp] theorem State.th_modRe_frame (s : State) (r : Nat) (f : Reactor → Reactor) (k : Nat) : (s.modRe r f).th k = s.th k := by unfold State.modRe; split <;> rfl
@[simp] theorem State.co_modRe_frame (s : State) (r : Nat) (f : Reactor → Reactor) (k : Nat) : (s.modRe r f).co k = s.co k := by unfold State.modRe; split <;> rfl
@[simp] theorem State.cl_modRe_frame (s : State) (r : Nat) (f : Reactor → Reactor) (k : Nat) : (s.modRe r f).cl k = s.cl k := by unfold State.modRe; split <;> rfl
@[simp] theorem State.bu_modRe_frame (s : State) (r : Nat) (f : Reactor → Reactor) (k : Nat) : (s.modRe r f).bu k = s.bu k := by unfold State.modRe; split <;> rfl
@[simp] theorem State.de_modRe_frame (s : State) (r : Nat) (f : Reactor → Reactor) (k : Nat) : (s.modRe r f).de k = s.de k := by unfold State.modRe; split <;> rfl
@[simp] theorem State.po_modRe_frame (s : State) (r : Nat) (f : Reactor → Reactor) (k : Nat) : (s.modRe r f).po k = s.po k := by unfold State.modRe; split <;> rfl
@[simp] theorem State.pt_modRe_frame (s : State) (r : Nat) (f : Reactor → Reactor) (k : Nat) : (s.modRe r f).pt k = s.pt k := by unfold State.modRe; split <;> rfl
@[simp] theorem State.li_modRe_frame (s : State) (r : Nat) (f : Reactor → Reactor) (k : Nat) : (s.modRe r f).li k = s.li k := by unfold State.modRe; split <;> rfl
@[simp] theorem State.swi_modRe_frame (s : State) (r : Nat) (f : Reactor → Reactor) (k : Nat) : (s.modRe r f).swi k = s.swi k := by unfold State.modRe; split <;> rfl
@[simp] theorem State.act_modRe_frame (s : State) (r : Nat) (f : Reactor → Reactor) (k : Nat) : (s.modRe r f).act k = s.act k := by unfold State.modRe; split <;> rfl
@[simp] theorem State.flOpt_modRe_frame (s : State) (r : Nat) (f : Reactor → Reactor) (k : Nat) : (s.modRe r f).fl? k = s.fl? k := by unfold State.modRe; split <;> rfl

/-! ### modBu -/

@[simp] theorem State.th_modBu_frame (s : State) (b : Nat) (f : Bulkhead → Bulkhead) (k : Nat) : (s.modBu b f).th k = s.th k := rfl
@[simp] theorem State.co_modBu_frame (s : State) (b : Nat) (f : Bulkhead → Bulkhead) (k : Nat) : (s.modBu b f).co k = s.co k := rfl
@[simp] theorem State.cl_modBu_frame (s : State) (b : Nat) (f : Bulkhead → Bulkhead) (k : Nat) : (s.modBu b f).cl k = s.cl k := rfl
@[simp] theorem State.re_modBu_frame (s : State) (b : Nat) (f : Bulkhead → Bulkhead) (k : Nat) : (s.modBu b f).re k = s.re k := rfl
@[simp] theorem State.hasRe_modBu_frame (s : State) (b : Nat) (f : Bulkhead → Bulkhead) (k : Nat) : (s.modBu b f).hasRe k = s.hasRe k := rfl
@[simp] theorem State.de_modBu_frame (s : State) (b : Nat) (f : Bulkhead → Bulkhead) (k : Nat) : (s.modBu b f).de k = s.de k := rfl
@[simp] theorem State.po_modBu_frame (s : State) (b : Nat) (f : Bulkhead → Bulkhead) (k : Nat) : (s.modBu b f).po k = s.po k := rfl
@[simp] theorem State.pt_modBu_frame (s : State) (b : Nat) (f : Bulkhead → Bulkhead) (k : Nat) : (s.modBu b f).pt k = s.pt k := rfl
@[simp] theorem State.li_modBu_frame (s : State) (b : Nat) (f : Bulkhead → Bulkhead) (k : Nat) : (s.modBu b f).li k = s.li k := rfl
@[simp] theorem State.swi_modBu_frame (s : State) (b : Nat) (f : Bulkhead → Bulkhead) (k : Nat) : (s.modBu b f).swi k = s.swi k := rfl
@[simp] theorem State.act_modBu_frame (s : State) (b : Nat) (f : Bulkhead → Bulkhead) (k : Nat) : (s.modBu b f).act k = s.act k := rfl
@[simp] theorem State.flOpt_modBu_frame (s : State) (b : Nat) (f : Bulkhead → Bulkhead) (k : Nat) : (s.modBu b f).fl? k = s.fl? k := rfl

/-! ### modDe -/

@[simp] theorem State.th_modDe_frame (s : State) (d : Nat) (f : Device → Device) (k : Nat) : (s.modDe d f).th k = s.th k := rfl
@[simp] theorem State.co_modDe_frame (s : State) (d : Nat) (f : Device → Device) (k : Nat) : (s.modDe d f).co k = s.co k := rfl
@[simp] theorem State.cl_modDe_frame (s : State) (d : Nat) (f : Device → Device) (k : Nat) : (s.modDe d f).cl k = s.cl k := rfl
@[simp] theorem State.re_modDe_frame (s : State) (d : Nat) (f : Device → Device) (k : Nat) : (s.modDe d f).re k = s.re k := rfl
@[simp] theorem State.hasRe_modDe_frame (s : State) (d : Nat) (f : Device → Device) (k : Nat) : (s.modDe d f).hasRe k = s.hasRe k := rfl
@[simp] theorem State.bu_modDe_frame (s : State) (d : Nat) (f : Device → Device) (k : Nat) : (s.modDe d f).bu k = s.bu k := rfl
@[simp] theorem State.pt_modDe_frame (s : State) (d : Nat) (f : Device → Device) (k : Nat) : (s.modDe d f).pt k = s.pt k := rfl
@[simp] theorem State.li_modDe_frame (s : State) (d : Nat) (f : Device → Device) (k : Nat) : (s.modDe d f).li k = s.li k := rfl
@[simp] theorem State.swi_modDe_frame (s : State) (d : Nat) (f : Device → Device) (k : Nat) : (s.modDe d f).swi k = s.swi k := rfl
@[simp] theorem State.act_modDe_frame (s : State) (d : Nat) (f : Device → Device) (k : Nat) : (s.modDe d f).act k = s.act k := rfl
@[simp] theorem State.flOpt_modDe_frame (s : State) (d : Nat) (f : Device → Device) (k : Nat) : (s.modDe d f).fl? k = s.fl? k := rfl

/-! ### modPo -/

@[simp] theorem State.th_modPo_frame (s : State) (p : Nat) (f : Port → Port) (k : Nat) : (s.modPo p f).th k = s.th k := rfl
@[simp] theorem State.co_modPo_frame (s : State) (p : Nat) (f : Port → Port) (k : Nat) : (s.modPo p f).co k = s.co k := rfl
@[simp] theorem State.cl_modPo_frame (s : State) (p : Nat) (f : Port → Port) (k : Nat) : (s.modPo p f).cl k = s.cl k := rfl
@[simp] theorem State.re_modPo_frame (s : State) (p : Nat) (f : Port → Port) (k : Nat) : (s.modPo p f).re k = s.re k := rfl
@[simp] theorem State.hasRe_modPo_frame (s : State) (p : Nat) (f : Port → Port) (k : Nat) : (s.modPo p f).hasRe k = s.hasRe k := rfl
@[simp] theorem State.bu_modPo_frame (s : State) (p : Nat) (f : Port → Port) (k : Nat) : (s.modPo p f).bu k = s.bu k := rfl
@[simp] theorem State.pt_modPo_frame (s : State) (p : Nat) (f : Port → Port) (k : Nat) : (s.modPo p f).pt k = s.pt k := rfl
@[simp] theorem State.li_modPo_frame (s : State) (p : Nat) (f : Port → Port) (k : Nat) : (s.modPo p f).li k = s.li k := rfl
@[simp] theorem State.swi_modPo_frame (s : State) (p : Nat) (f : Port → Port) (k : Nat) : (s.modPo p f).swi k = s.swi k := rfl
@[simp] theorem State.act_modPo_frame (s : State) (p : Nat) (f : Port → Port) (k : Nat) : (s.modPo p f).act k = s.act k := rfl
@[simp] theorem State.flOpt_modPo_frame (s : State) (p : Nat) (f : Port → Port) (k : Nat) : (s.modPo p f).fl? k = s.fl? k := rfl

/-! ### modPt -/

@[simp] theorem State.th_modPt_frame (s : State) (p : Nat) (f : Partition → Partition) (k : Nat) : (s.modPt p f).th k = s.th k := rfl
@[simp] theorem State.co_modPt_frame (s : State) (p : Nat) (f : Partition → Partition) (k : Nat) : (s.modPt p f).co k = s.co k := rfl
@[simp] theorem State.cl_modPt_frame (s : State) (p : Nat) (f : Partition → Partition) (k : Nat) : (s.modPt p f).cl k = s.cl k := rfl
@[simp] theorem State.re_modPt_frame (s : State) (p : Nat) (f : Partition → Partition) (k : Nat) : (s.modPt p f).re k = s.re k := rfl
@[simp] theorem State.hasRe_modPt_frame (s : State) (p : Nat) (f : Partition → Partition) (k : Nat) : (s.modPt p f).hasRe k = s.hasRe k := rfl
@[simp] theorem State.bu_modPt_frame (s : State) (p : Nat) (f : Partition → Partition) (k : Nat) : (s.modPt p f).bu k = s.bu k := rfl
@[simp] theorem State.de_modPt_frame (s : State) (p : Nat) (f : Partition → Partition) (k : Nat) : (s.modPt p f).de k = s.de k := rfl
@[simp] theorem State.po_modPt_frame (s : State) (p : Nat) (f : Partition → Partition) (k : Nat) : (s.modPt p f).po k = s.po k := rfl
@[simp] theorem State.li_modPt_frame (s : State) (p : Nat) (f : Partition → Partition) (k : Nat) : (s.modPt p f).li k = s.li k := rfl
@[simp] theorem State.swi_modPt_frame (s : State) (p : Nat) (f : Partition → Partition) (k : Nat) : (s.modPt p f).swi k = s.swi k := rfl
@[simp] theorem State.act_modPt_frame (s : State) (p : Nat) (f : Partition → Partition) (k : Nat) : (s.modPt p f).act k = s.act k := rfl
@[simp] theorem State.flOpt_modPt_frame (s : State) (p : Nat) (f : Partition → Partition) (k : Nat) : (s.modPt p f).fl? k = s.fl? k := rfl

/-! ### modLi -/

@[simp] theorem State.th_modLi_frame (s : State) (l : Nat) (f : Link → Link) (k : Nat) : (s.modLi l f).th k = s.th k := rfl
@[simp] theorem State.co_modLi_frame (s : State) (l : Nat) (f : Link → Link) (k : Nat) : (s.modLi l f).co k = s.co k := rfl
@[simp] theorem State.cl_modLi_frame (s : State) (l : Nat) (f : Link → Link) (k : Nat) : (s.modLi l f).cl k = s.cl k := rfl
@[simp] theorem State.re_modLi_frame (s : State) (l : Nat) (f : Link → Link) (k : Nat) : (s.modLi l f).re k = s.re k := rfl
@[simp] theorem State.hasRe_modLi_frame (s : State) (l : Nat) (f : Link → Link) (k : Nat) : (s.modLi l f).hasRe k = s.hasRe k := rfl
@[simp] theorem State.bu_modLi_frame (s : State) (l : Nat) (f : Link → Link) (k : Nat) : (s.modLi l f).bu k = s.bu k := rfl
@[simp] theorem State.de_modLi_frame (s : State) (l : Nat) (f : Link → Link) (k : Nat) : (s.modLi l f).de k = s.de k := rfl
@[simp] theorem State.po_modLi_frame (s : State) (l : Nat) (f : Link → Link) (k : Nat) : (s.modLi l f).po k = s.po k := rfl
@[simp] theorem State.pt_modLi_frame (s : State) (l : Nat) (f : Link → Link) (k : Nat) : (s.modLi l f).pt k = s.pt k := rfl
@[simp] theorem State.swi_modLi_frame (s : State) (l : Nat) (f : Link → Link) (k : Nat) : (s.modLi l f).swi k = s.swi k := rfl
@[simp] theorem State.act_modLi_frame (s : State) (l : Nat) (f : Link → Link) (k : Nat) : (s.modLi l f).act k = s.act k := rfl
@[simp] theorem State.flOpt_modLi_frame (s : State) (l : Nat) (f : Link → Link) (k : Nat) : (s.modLi l f).fl? k = s.fl? k := rfl

/-! ### modSw -/

@[simp] theorem State.th_modSw_frame (s : State) (w : Nat) (f : Switch → Switch) (k : Nat) : (s.modSw w f).th k = s.th k := rfl
@[simp] theorem State.co_modSw_frame (s : State) (w : Nat) (f : Switch → Switch) (k : Nat) : (s.modSw w f).co k = s.co k := rfl
@[simp] theorem State.cl_modSw_frame (s : State) (w : Nat) (f : Switch → Switch) (k : Nat) : (s.modSw w f).cl k = s.cl k := rfl
@[simp] theorem State.re_modSw_frame (s : State) (w : Nat) (f : Switch → Switch) (k : Nat) : (s.modSw w f).re k = s.re k := rfl
@[simp] theorem State.hasRe_modSw_frame (s : State) (w : Nat) (f : Switch → Switch) (k : Nat) : (s.modSw w f).hasRe k = s.hasRe k := rfl
@[simp] theorem State.bu_modSw_frame (s : State) (w : Nat) (f : Switch → Switch) (k : Nat) : (s.modSw w f).bu k = s.bu k := rfl
@[simp] theorem State.de_modSw_frame (s : State) (w : Nat) (f : Switch → Switch) (k : Nat) : (s.modSw w f).de k = s.de k := rfl
@[simp] theorem State.po_modSw_frame (s : State) (w : Nat) (f : Switch → Switch) (k : Nat) : (s.modSw w f).po k = s.po k := rfl
@[simp] theorem State.pt_modSw_frame (s : State) (w : Nat) (f : Switch → Switch) (k : Nat) : (s.modSw w f).pt k = s.pt k := rfl
@[simp] theorem State.li_modSw_frame (s : State) (w : Nat) (f : Switch → Switch) (k : Nat) : (s.modSw w f).li k = s.li k := rfl
@[simp] theorem State.act_modSw_frame (s : State) (w : Nat) (f : Switch → Switch) (k : Nat) : (s.modSw w f).act k = s.act k := rfl
@[simp] theorem State.flOpt_modSw_frame (s : State) (w : Nat) (f : Switch → Switch) (k : Nat) : (s.modSw w f).fl? k = s.fl? k := rfl

/-! ### emit -/

@[simp] theorem State.th_emit_frame (s : State) (f : Flight) (k : Nat) : (s.emit f).th k = s.th k := rfl
@[simp] theorem State.co_emit_frame (s : State) (f : Flight) (k : Nat) : (s.emit f).co k = s.co k := rfl
@[simp] theorem State.cl_emit_frame (s : State) (f : Flight) (k : Nat) : (s.emit f).cl k = s.cl k := rfl
@[simp] theorem State.re_emit_frame (s : State) (f : Flight) (k : Nat) : (s.emit f).re k = s.re k := rfl
@[simp] theorem State.hasRe_emit_frame (s : State) (f : Flight) (k : Nat) : (s.emit f).hasRe k = s.hasRe k := rfl
@[simp] theorem State.bu_emit_frame (s : State) (f : Flight) (k : Nat) : (s.emit f).bu k = s.bu k := rfl
@[simp] theorem State.de_emit_frame (s : State) (f : Flight) (k : Nat) : (s.emit f).de k = s.de k := rfl
@[simp] theorem State.po_emit_frame (s : State) (f : Flight) (k : Nat) : (s.emit f).po k = s.po k := rfl
@[simp] theorem State.pt_emit_frame (s : State) (f : Flight) (k : Nat) : (s.emit f).pt k = s.pt k := rfl
@[simp] theorem State.li_emit_frame (s : State) (f : Flight) (k : Nat) : (s.emit f).li k = s.li k := rfl
@[simp] theorem State.swi_emit_frame (s : State) (f : Flight) (k : Nat) : (s.emit f).swi k = s.swi k := rfl
@[simp] theorem State.act_emit_frame (s : State) (f : Flight) (k : Nat) : (s.emit f).act k = s.act k := rfl

/-! ### setFl -/

@[simp] theorem State.th_setFl_frame (s : State) (id : Nat) (f : Flight) (k : Nat) : (s.setFl id f).th k = s.th k := rfl
@[simp] theorem State.co_setFl_frame (s : State) (id : Nat) (f : Flight) (k : Nat) : (s.setFl id f).co k = s.co k := rfl
@[simp] theorem State.cl_setFl_frame (s : State) (id : Nat) (f : Flight) (k : Nat) : (s.setFl id f).cl k = s.cl k := rfl
@[simp] theorem State.re_setFl_frame (s : State) (id : Nat) (f : Flight) (k : Nat) : (s.setFl id f).re k = s.re k := rfl
@[simp] theorem State.hasRe_setFl_frame (s : State) (id : Nat) (f : Flight) (k : Nat) : (s.setFl id f).hasRe k = s.hasRe k := rfl
@[simp] theorem State.bu_setFl_frame (s : State) (id : Nat) (f : Flight) (k : Nat) : (s.setFl id f).bu k = s.bu k := rfl
@[simp] theorem State.de_setFl_frame (s : State) (id : Nat) (f : Flight) (k : Nat) : (s.setFl id f).de k = s.de k := rfl
@[simp] theorem State.po_setFl_frame (s : State) (id : Nat) (f : Flight) (k : Nat) : (s.setFl id f).po k = s.po k := rfl
@[simp] theorem State.pt_setFl_frame (s : State) (id : Nat) (f : Flight) (k : Nat) : (s.setFl id f).pt k = s.pt k := rfl
@[simp] theorem State.li_setFl_frame (s : State) (id : Nat) (f : Flight) (k : Nat) : (s.setFl id f).li k = s.li k := rfl
@[simp] theorem State.swi_setFl_frame (s : State) (id : Nat) (f : Flight) (k : Nat) : (s.setFl id f).swi k = s.swi k := rfl
@[simp] theorem State.act_setFl_frame (s : State) (id : Nat) (f : Flight) (k : Nat) : (s.setFl id f).act k = s.act k := rfl

/-! ### endFl -/

@[simp] theorem State.th_endFl_frame (s : State) (id : Nat) (k : Nat) : (s.endFl id).th k = s.th k := rfl
@[simp] theorem State.co_endFl_frame (s : State) (id : Nat) (k : Nat) : (s.endFl id).co k = s.co k := rfl
@[simp] theorem State.cl_endFl_frame (s : State) (id : Nat) (k : Nat) : (s.endFl id).cl k = s.cl k := rfl
@[simp] theorem State.re_endFl_frame (s : State) (id : Nat) (k : Nat) : (s.endFl id).re k = s.re k := rfl
@[simp] theorem State.hasRe_endFl_frame (s : State) (id : Nat) (k : Nat) : (s.endFl id).hasRe k = s.hasRe k := rfl
@[simp] theorem State.bu_endFl_frame (s : State) (id : Nat) (k : Nat) : (s.endFl id).bu k = s.bu k := rfl
@[simp] theorem State.de_endFl_frame (s : State) (id : Nat) (k : Nat) : (s.endFl id).de k = s.de k := rfl
@[simp] theorem State.po_endFl_frame (s : State) (id : Nat) (k : Nat) : (s.endFl id).po k = s.po k := rfl
@[simp] theorem State.pt_endFl_frame (s : State) (id : Nat) (k : Nat) : (s.endFl id).pt k = s.pt k := rfl
@[simp] theorem State.li_endFl_frame (s : State) (id : Nat) (k : Nat) : (s.endFl id).li k = s.li k := rfl
@[simp] theorem State.swi_endFl_frame (s : State) (id : Nat) (k : Nat) : (s.endFl id).swi k = s.swi k := rfl
@[simp] theorem State.act_endFl_frame (s : State) (id : Nat) (k : Nat) : (s.endFl id).act k = s.act k := rfl

/-! ### rawWrite -/

@[simp] theorem State.th_rawWrite_frame (s : State) (a : Nat) (bs : List Byte) (k : Nat) : (s.rawWrite a bs).th k = s.th k := rfl
@[simp] theorem State.co_rawWrite_frame (s : State) (a : Nat) (bs : List Byte) (k : Nat) : (s.rawWrite a bs).co k = s.co k := rfl
@[simp] theorem State.cl_rawWrite_frame (s : State) (a : Nat) (bs : List Byte) (k : Nat) : (s.rawWrite a bs).cl k = s.cl k := rfl
@[simp] theorem State.re_rawWrite_frame (s : State) (a : Nat) (bs : List Byte) (k : Nat) : (s.rawWrite a bs).re k = s.re k := rfl
@[simp] theorem State.hasRe_rawWrite_frame (s : State) (a : Nat) (bs : List Byte) (k : Nat) : (s.rawWrite a bs).hasRe k = s.hasRe k := rfl
@[simp] theorem State.bu_rawWrite_frame (s : State) (a : Nat) (bs : List Byte) (k : Nat) : (s.rawWrite a bs).bu k = s.bu k := rfl
@[simp] theorem State.de_rawWrite_frame (s : State) (a : Nat) (bs : List Byte) (k : Nat) : (s.rawWrite a bs).de k = s.de k := rfl
@[simp] theorem State.po_rawWrite_frame (s : State) (a : Nat) (bs : List Byte) (k : Nat) : (s.rawWrite a bs).po k = s.po k := rfl
@[simp] theorem State.pt_rawWrite_frame (s : State) (a : Nat) (bs : List Byte) (k : Nat) : (s.rawWrite a bs).pt k = s.pt k := rfl
@[simp] theorem State.li_rawWrite_frame (s : State) (a : Nat) (bs : List Byte) (k : Nat) : (s.rawWrite a bs).li k = s.li k := rfl
@[simp] theorem State.swi_rawWrite_frame (s : State) (a : Nat) (bs : List Byte) (k : Nat) : (s.rawWrite a bs).swi k = s.swi k := rfl
@[simp] theorem State.act_rawWrite_frame (s : State) (a : Nat) (bs : List Byte) (k : Nat) : (s.rawWrite a bs).act k = s.act k := rfl
@[simp] theorem State.flOpt_rawWrite_frame (s : State) (a : Nat) (bs : List Byte) (k : Nat) : (s.rawWrite a bs).fl? k = s.fl? k := rfl

/-! ### put -/

@[simp] theorem State.th_put_frame (s : State) (a : Nat) (bs : List Byte) (k : Nat) : (s.put a bs).th k = s.th k := rfl
@[simp] theorem State.co_put_frame (s : State) (a : Nat) (bs : List Byte) (k : Nat) : (s.put a bs).co k = s.co k := rfl
@[simp] theorem State.cl_put_frame (s : State) (a : Nat) (bs : List Byte) (k : Nat) : (s.put a bs).cl k = s.cl k := rfl
@[simp] theorem State.re_put_frame (s : State) (a : Nat) (bs : List Byte) (k : Nat) : (s.put a bs).re k = s.re k := rfl
@[simp] theorem State.hasRe_put_frame (s : State) (a : Nat) (bs : List Byte) (k : Nat) : (s.put a bs).hasRe k = s.hasRe k := rfl
@[simp] theorem State.bu_put_frame (s : State) (a : Nat) (bs : List Byte) (k : Nat) : (s.put a bs).bu k = s.bu k := rfl
@[simp] theorem State.de_put_frame (s : State) (a : Nat) (bs : List Byte) (k : Nat) : (s.put a bs).de k = s.de k := rfl
@[simp] theorem State.po_put_frame (s : State) (a : Nat) (bs : List Byte) (k : Nat) : (s.put a bs).po k = s.po k := rfl
@[simp] theorem State.pt_put_frame (s : State) (a : Nat) (bs : List Byte) (k : Nat) : (s.put a bs).pt k = s.pt k := rfl
@[simp] theorem State.li_put_frame (s : State) (a : Nat) (bs : List Byte) (k : Nat) : (s.put a bs).li k = s.li k := rfl
@[simp] theorem State.swi_put_frame (s : State) (a : Nat) (bs : List Byte) (k : Nat) : (s.put a bs).swi k = s.swi k := rfl
@[simp] theorem State.act_put_frame (s : State) (a : Nat) (bs : List Byte) (k : Nat) : (s.put a bs).act k = s.act k := rfl
@[simp] theorem State.flOpt_put_frame (s : State) (a : Nat) (bs : List Byte) (k : Nat) : (s.put a bs).fl? k = s.fl? k := rfl

end Sys2Proof.Machine
end

