-- ==== Sys2Proof/Laws/Ops.lean ====
section
/-! SUPPORT. Laws/Ops.lean: for each operation that many meanings share, what it does, said once. -/

namespace Sys2Proof.Machine

/-! ### The frame of an instruction (R150) -/

/-- A scalar-class instruction acts when its guard is true, and otherwise only advances. -/
theorem scalarI_true {g : Guard} {s : State} (h : s.me.r.guardTrue g = true) (len : Nat) (body : State → State) :
    scalarI g len body s = .next (body s) := by
  simp [scalarI, h]
theorem scalarI_false {g : Guard} {s : State} (h : s.me.r.guardTrue g = false) (len : Nat) (body : State → State) :
    scalarI g len body s = .next (advance len s) := by
  simp [scalarI, h]
/-- It always has a next state. -/
theorem scalarI_next (g : Guard) (len : Nat) (body : State → State) (s : State) : ∃ t, scalarI g len body s = .next t := ⟨_, rfl⟩

/-- A vector-class instruction acts when its mask selects a lane, and otherwise only advances. -/
theorem vectorI_some {g : Guard} {s : State} (h : s.me.r.lanes g ≠ 0) (len : Nat) (body : BitVec 8 → State → State) :
    vectorI g len body s = .next (body (s.me.r.lanes g) s) := by
  rw [vectorI, if_neg h]
theorem vectorI_none {g : Guard} {s : State} (h : s.me.r.lanes g = 0) (len : Nat) (body : BitVec 8 → State → State) :
    vectorI g len body s = .next (advance len s) := by
  simp [vectorI, h]
theorem vectorI_next (g : Guard) (len : Nat) (body : BitVec 8 → State → State) (s : State) : ∃ t, vectorI g len body s = .next t :=
  ⟨_, rfl⟩

/-- What an instruction that only writes registers leaves: one change of the issuing thread set. -/
theorem scalarR_true {g : Guard} {s : State} (h : s.me.r.guardTrue g = true) (len : Nat) (f : Regs → Regs) :
    scalarR g len f s = .next (s.modMe fun t => { t with r := f t.r, pc := t.pc + BitVec.ofNat 64 len }) := by
  rw [scalarR, scalarI_true h, advance, State.modMe_modMe]
theorem vectorR_some {g : Guard} {s : State} (h : s.me.r.lanes g ≠ 0) (len : Nat) (f : BitVec 8 → Regs → Regs) :
    vectorR g len f s = .next (s.modMe fun t => { t with r := f (s.me.r.lanes g) t.r, pc := t.pc + BitVec.ofNat 64 len }) := by
  rw [vectorR, vectorI_some h, advance, State.modMe_modMe]

/-- Moving on changes the program counter of the issuing thread set alone. -/
@[simp] theorem advance_me (n : Nat) (s : State) : (advance n s).me = { s.me with pc := s.me.pc + BitVec.ofNat 64 n } :=
  State.me_modMe ..

/-- A system instruction with no load in flight acts when its guard is true. -/
theorem sysI_true {g : Guard} {x : XA} {s : State} (h : s.me.r.guardTrue g = true) (hl : s.loading s.cur = false) (body : State → State) :
    sysI g x body s = .next (body s) := by
  simp [sysI, scalarI_true h, hl]

/-- A privileged instruction in a privileged activation past its commit point acts (R323, R340). -/
theorem privI_acts {g : Guard} {x : XA} {s : State} (h : s.me.r.guardTrue g = true) (hl : s.loading s.cur = false)
    (hp : (s.act s.cur).priv = true) (hc : s.me.act.isSome = false ∨ (s.act s.cur).restartable = false) (body : State → State) :
    privI g x body s = .next (body s) := by
  rw [privI, sysI_true h hl]
  rcases hc with hc | hc <;> simp [hp, committed, hc]

/-- In an unprivileged activation it takes the privilege trap. -/
theorem privI_traps {g : Guard} {x : XA} {s : State} (h : s.me.r.guardTrue g = true) (hl : s.loading s.cur = false)
    (hp : (s.act s.cur).priv = false) (body : State → State) :
    privI g x body s = .next (trap 0x04 ((word0 s).setWidth 64) s) := by
  rw [privI, sysI_true h hl]
  simp [hp]

/-! ### Waiting and committing -/

/-- An instruction past the commit point, or outside any activation, goes ahead. -/
theorem committed_past {s : State} (h : s.me.act.isSome = false ∨ (s.act s.cur).restartable = false) (body : State → State) :
    committed body s = body s := by
  rcases h with h | h <;> simp [committed, h]
/-- A drain that is asked for begins once every earlier access has been acknowledged. -/
theorem drainNow_acked {s : State} (h : allAcked s s.cur = true) (fin : Bool) : drainNow fin s = startDrain fin s := if_pos h
theorem drainNow_waits {s : State} (h : allAcked s s.cur = false) (fin : Bool) : drainNow fin s = waits 12 s := by
  simp [drainNow, h]
/-- Before it, the thread set drains instead. -/
theorem committed_before {s : State} (h : s.me.act.isSome = true) (hr : (s.act s.cur).restartable = true) (body : State → State) :
    committed body s = drainNow false s := by
  simp [committed, h, hr]
/-- A drain waits for the accesses on their way. -/
theorem startDrain_waits {s : State} (h : allAcked s s.cur = false) (fin : Bool) : startDrain fin s = s := by
  simp [startDrain, h]

/-- An instruction whose counter has room goes ahead (R187). -/
theorem counted_room {s : State} {n : Nat} (h : s.me.c n ≠ 255) (body : State → State) : counted n body s = body s := by
  simp [counted, h]
theorem counted_full {s : State} {n : Nat} (h : s.me.c n = 255) (body : State → State) : counted n body s = waits 10 s := by
  simp [counted, h]

/-! ### Traps (R164, R362, R364, R367) -/

/-- A trap with nothing in flight freezes the thread set at once; otherwise the state stays. -/
theorem trap_settled {s : State} (hl : s.loading s.cur = false) (ho : s.owed s.cur s.nextId = false) (code : Nat) (v : W64) :
    trap code v s = freezeAt s.cur code none v s := by
  simp [trap, State.awaits, hl, ho]
theorem trap_waits {s : State} (h : s.loading s.cur = true ∨ s.owed s.cur s.nextId = true) (code : Nat) (v : W64) : trap code v s = s := by
  rcases h with h | h <;> simp [trap, State.awaits, h]

/-- The thread set that freezes: its trap registers are written at its program counter. -/
theorem freezeAt_th (u code : Nat) (lane : Option Nat) (v : W64) (s : State) : (freezeAt u code lane v s).th u =
    { s.th u with mode := .frozen, tcause := causeWord code lane, tval := v, tepc := (s.th u).pc, tstat := (s.th u).statWord,
                  hist := 0, retried := false, tfroze := s.ns (bhOf u) } := by
  unfold freezeAt
  dsimp only
  split <;> simp
/-- Every other thread set stands. -/
theorem freezeAt_th_other {u v : Nat} (h : v ≠ u) (code : Nat) (lane : Option Nat) (w : W64) (s : State) :
    (freezeAt u code lane w s).th v = s.th v := by
  unfold freezeAt
  dsimp only
  split
  · rw [State.th_modCl_frame, State.th_modTh_other h]
  · rw [State.th_modTh_other h]
/-- Nothing but a thread set and its cluster's trap queue changes. -/
theorem freezeAt_eq (u code : Nat) (lane : Option Nat) (v : W64) (s : State) : freezeAt u code lane v s =
    { s with thr := (freezeAt u code lane v s).thr, clu := (freezeAt u code lane v s).clu } := by
  simp only [freezeAt]
  split <;> rfl
/-- A cause with a buddy adds the youngest entry of the trap queue. -/
theorem freezeAt_traps {code : Nat} (h : causeHasBuddy code = true) (u : Nat) (lane : Option Nat) (v : W64) (s : State) :
    ((freezeAt u code lane v s).cl (cluOf u)).traps = (s.cl (cluOf u)).traps ++ [{ ts := u, order := (s.cl (cluOf u)).nextOrder }] := by
  simp only [freezeAt, h, if_true, State.cl_modCl]
  rfl
/-- What serves a freeze goes, and no thread set changes. -/
@[simp] theorem dropTrap_th (u v : Nat) (s : State) : (dropTrap u s).th v = s.th v := rfl
/-- A thaw resumes the thread set, and its trap entry goes. -/
theorem unfreeze_th (u : Nat) (s : State) : (unfreeze u s).th u = { s.th u with mode := .run } := by simp [unfreeze]

/-! ### Transfers (R211, R216) -/

/-- A transfer to an aligned address of the code windows writes its link and the program counter, and ends a repetition. -/
theorem transfer_good {a : W64} (h : targetOk a = true) (link : Regs → Regs) (s : State) :
    transfer a link s = s.modMe fun t => { t with r := link t.r, repst := 0, pc := a } := by
  simp [transfer, h]
/-- Any other raises the address trap. -/
theorem transfer_bad {a : W64} (h : targetOk a = false) (link : Regs → Regs) (s : State) : transfer a link s = trap 0x02 a s := by
  simp [transfer, h]

/-! ### A status in d -/

/-- A system instruction's status is one change of the issuing thread set. -/
theorem gives_eq (x : XA) (v : Nat) (s : State) : gives x v s =
    s.modMe fun t => { t with r := t.r.put (rngOf x.d) v, pc := t.pc + BitVec.ofNat 64 (extLen x.lit) } := by
  rw [gives, putMe, advance, State.modMe_modMe]

/-- A view error changes SSTAT.VE and its cause alone. -/
@[simp] theorem viewError_me (c : Nat) (s : State) : (viewError c s).me = { s.me with ve := true, vec := BitVec.ofNat 4 c } :=
  State.me_modMe ..

/-! ### Counters of the core -/

/-- An event that no counter is set to changes nothing. -/
theorem countEv_none {u evt : Nat} {s : State} (h : ∀ e ∈ (s.co (coreOf u)).cfg, e.2.evt.toNat ≠ evt) (n : Nat) : countEv u evt n s = s := by
  rw [countEv, if_neg]
  simp only [List.any_eq_true, Bool.and_eq_true, decide_eq_true_eq, not_exists, not_and]
  intro e he hv
  exact absurd hv (h e he)
/-- Counting changes cores alone. -/
theorem countEv_eq (u evt n : Nat) (s : State) : countEv u evt n s = { s with core := (countEv u evt n s).core } := by
  unfold countEv
  dsimp only
  split <;> rfl
theorem stall_eq (u n c : Nat) (s : State) : stall u n c s = { s with core := (stall u n c s).core } := by
  unfold stall
  split
  · rfl
  · rw [countEv_eq]
    rfl
@[simp] theorem countEv_th (u evt n v : Nat) (s : State) : (countEv u evt n s).th v = s.th v := by
  rw [countEv_eq]
  rfl
@[simp] theorem stall_th (u n c v : Nat) (s : State) : (stall u n c s).th v = s.th v := by
  rw [stall_eq]
  rfl
@[simp] theorem countEv_mem (u evt n : Nat) (s : State) : (countEv u evt n s).mem = s.mem := by rw [countEv_eq]
@[simp] theorem stall_mem (u n c : Nat) (s : State) : (stall u n c s).mem = s.mem := by rw [stall_eq]
@[simp] theorem countEv_cur (u evt n : Nat) (s : State) : (countEv u evt n s).cur = s.cur := by rw [countEv_eq]
@[simp] theorem stall_cur (u n c : Nat) (s : State) : (stall u n c s).cur = s.cur := by rw [stall_eq]
@[simp] theorem countEv_flight (u evt n : Nat) (s : State) : (countEv u evt n s).flight = s.flight := by rw [countEv_eq]
@[simp] theorem stall_flight (u n c : Nat) (s : State) : (stall u n c s).flight = s.flight := by rw [stall_eq]

/-- A log record changes its bulkhead alone. -/
theorem logTo_eq (bh : Nat) (e : ErrRec) (s : State) : logTo bh e s = { s with bh := (logTo bh e s).bh } := rfl

/-! ### Work in flight -/

/-- What ends is in flight no more, and all else is. -/
theorem State.mem_endFl (s : State) (id : Nat) (e : Nat × Flight) : e ∈ (s.endFl id).flight ↔ e ∈ s.flight ∧ e.1 ≠ id := by
  simp [State.endFl]

/-! ### Queues that have nothing to evaluate (R350, R351) -/

/-- A reactor that runs, or that waits for something else than its queue, is left as it is. -/
theorem evalStep_busy {r : Nat} {s : State} (h : (s.re r).st ≠ .idle ∧ (s.re r).st ≠ .hold) : evalStep r s = (s, false) := by
  unfold evalStep
  simp [h.1, h.2]
theorem evalReactor_busy {r : Nat} {s : State} (h : (s.re r).st ≠ .idle ∧ (s.re r).st ≠ .hold) (n : Nat) : evalReactor n r s = s := by
  cases n with
  | zero => rfl
  | succ n => simp [evalReactor, evalStep_busy h]
/-- Where every reactor is so, a round of evaluation changes nothing. -/
theorem evalRound_busy {s : State} (h : ∀ e ∈ s.reac, (s.re e.1).st ≠ .idle ∧ (s.re e.1).st ≠ .hold) (d : Nat) : evalRound d s = s := by
  unfold evalRound
  have : ∀ (l : List (Nat × Reactor)), (∀ e ∈ l, (s.re e.1).st ≠ .idle ∧ (s.re e.1).st ≠ .hold) →
      l.foldl (fun s e => evalReactor ((s.re e.1).entries.length + (s.re e.1).requeued.length + 1) e.1 s) s = s := by
    intro l
    induction l with
    | nil => exact fun _ => rfl
    | cons e l ih =>
      intro hl
      rw [List.foldl_cons, evalReactor_busy (hl e List.mem_cons_self)]
      exact ih fun e he => hl e (List.mem_cons_of_mem _ he)
  exact this _ fun e he => h e (List.mem_filter.1 he).1
/-- Nor does evaluating the device's queues. -/
theorem evalDev_busy {s : State} (h : ∀ e ∈ s.reac, (s.re e.1).st ≠ .idle ∧ (s.re e.1).st ≠ .hold) (d : Nat) : evalDev d s = s := by
  simp [evalDev, evalRounds, evalRound_busy h]

end Sys2Proof.Machine
end

