-- ==== Sys2Proof/Laws/Keep.lean ====
section
/-! SUPPORT. Laws/Keep.lean: every operation that writes memory keeps its canonical form (R7, R54). -/

namespace Sys2Proof.Machine

/-- A chain of operations keeps what each of them keeps. -/
theorem foldl_keeps {α β : Type} {P : β → Prop} {f : β → α → β} (hf : ∀ b a, P b → P (f b a)) (l : List α) :
    ∀ b, P b → P (l.foldl f b) := by
  induction l with
  | nil => exact fun b h => h
  | cons a l ih => exact fun b h => ih _ (hf b a h)

/-- Memory in its canonical form. -/
def State.MemOk (s : State) : Prop := Memory.wf s.mem = true

theorem State.MemOk.of_mem {s t : State} (h : s.MemOk) (e : t.mem = s.mem) : t.MemOk := by
  unfold State.MemOk
  rw [e]
  exact h

theorem rawWrite_keeps (a : Nat) (bs : List Byte) {s : State} (h : s.MemOk) : (s.rawWrite a bs).MemOk := Memory.wrs_wf h a bs

theorem put_keeps (a : Nat) (bs : List Byte) {s : State} (h : s.MemOk) : (s.put a bs).MemOk := Memory.wrs_wf h a bs

theorem zeroPage_keeps (a n : Nat) {s : State} (h : s.MemOk) : (zeroPage a n s).MemOk := Memory.filter_wf h _

theorem wipeScratch_keeps (bh : Nat) {s : State} (h : s.MemOk) : (wipeScratch bh s).MemOk := Memory.filter_wf h _

theorem errorTo_keeps (r : Nat) (e : ErrRec) {s : State} (h : s.MemOk) : (errorTo r e s).MemOk := by
  unfold errorTo
  split
  · exact put_keeps _ _ (put_keeps _ _ h)
  · exact h

theorem completeTo_keeps (r : Nat) (bs : List Byte) {s : State} (h : s.MemOk) : (completeTo r bs s).MemOk := by
  unfold completeTo
  split
  · exact put_keeps _ _ (put_keeps _ _ h)
  · exact h

@[simp] theorem logTo_mem (bh : Nat) (e : ErrRec) (s : State) : (logTo bh e s).mem = s.mem := rfl

@[simp] theorem countFix_mem (pa : Nat) (c : Bool) (s : State) : (countFix pa c s).mem = s.mem := by
  unfold countFix
  split <;> rfl
@[simp] theorem traceDrop_mem (bh : Nat) (s : State) : (traceDrop bh s).mem = s.mem := rfl
@[simp] theorem traceSeq_mem (bh : Nat) (bs : List Byte) (s : State) : (traceSeq bh bs s).1.mem = s.mem := rfl

theorem traceStore_keeps (bh : Nat) (bs : List Byte) {s : State} (h : s.MemOk) : (traceStore bh s bs).MemOk := by
  unfold traceStore
  dsimp only
  split
  · exact h
  · exact put_keeps _ _ h
theorem traceFlush_keeps (bh : Nat) {s : State} (h : s.MemOk) : (traceFlush bh s).MemOk :=
  foldl_keeps (P := State.MemOk) (fun _ bs h => traceStore_keeps bh bs h) _ _ h
theorem traceOut_keeps {s : State} (h : s.MemOk) : (traceOut s).MemOk := by
  unfold traceOut
  refine foldl_keeps (P := State.MemOk) (fun s e h => ?_) _ _ h
  split
  · exact h
  · exact traceFlush_keeps _ h

theorem traceWrite_keeps (bh : Nat) (bs : List Byte) (own : Option Nat) {s : State} (h : s.MemOk) : (traceWrite bh bs own s).MemOk := by
  unfold traceWrite
  cases own <;> exact traceStore_keeps _ _ h

/-- A record that is made waits, and no byte changes until it is written. -/
@[simp] theorem trace_mem (bh kind : Nat) (bs : List Byte) (s : State) : (trace bh kind bs s).mem = s.mem := by
  unfold trace
  dsimp only
  split
  · split <;> rfl
  · rfl
theorem trace_keeps (bh kind : Nat) (bs : List Byte) {s : State} (h : s.MemOk) : (trace bh kind bs s).MemOk :=
  State.MemOk.of_mem h (trace_mem ..)

@[simp] theorem setPoison_mem (sec : Nat) (bad : Bool) (s : State) : (setPoison sec bad s).mem = s.mem := rfl
/-- Elision is metadata: it changes no byte. -/
@[simp] theorem elide_mem (sec : Nat) (s : State) : (elide sec s).mem = s.mem := by
  unfold elide
  dsimp only
  split <;> rfl

/-- A sector encoded anew writes its own bytes. -/
theorem recodeSector_mem (sec l : Nat) (tm : Bool) (d : BitVec 512) (c : BitVec 64) (s : State) :
    ∃ bs, (recodeSector sec l tm d c s).mem = Memory.wrs s.mem (sec * 64) bs := by
  unfold recodeSector
  dsimp only
  generalize (Memory.rds s.mem (sec * 64) 64).zipIdx = x
  refine ⟨x.map fun e => e.1 ^^^ (judge l tm d c).flips.extractLsb' (8 * e.2) 8, ?_⟩
  split
  · simp
  · split
    · simp
    · split <;> simp
theorem recodeSector_keeps (sec l : Nat) (tm : Bool) (d : BitVec 512) (c : BitVec 64) {s : State} (h : s.MemOk) :
    (recodeSector sec l tm d c s).MemOk := by
  obtain ⟨bs, e⟩ := recodeSector_mem sec l tm d c s
  unfold State.MemOk
  rw [e]
  exact Memory.wrs_wf h _ _

theorem recodeRange_keeps (pa n l : Nat) (tm : Bool) {s : State} (h : s.MemOk) : (recodeRange pa n l tm s).MemOk :=
  foldl_keeps (P := State.MemOk) (fun _ _ h => recodeSector_keeps _ _ _ _ _ h) _ _ h

theorem setBfmt_keeps (core bank : Nat) (v : W64) {s : State} (h : s.MemOk) : (setBfmt core bank v s).MemOk := by
  unfold setBfmt
  dsimp only
  split
  · exact h
  · exact recodeRange_keeps _ _ _ _ h

/-- A sector that moves writes what it reads as. -/
theorem copySector_mem (s : State) (src dst : Nat) :
    (copySector s src dst).1.mem = Memory.wrs s.mem dst (readLine s src 64).1 := by
  unfold copySector
  generalize readLine s src 64 = r
  dsimp only
  rw [elide_mem]
  simp
theorem copySector_keeps (src dst : Nat) {s : State} (h : s.MemOk) : (copySector s src dst).1.MemOk := by
  unfold State.MemOk
  rw [copySector_mem]
  exact Memory.wrs_wf h _ _

theorem copyRange_keeps (src dst n : Nat) {s : State} (h : s.MemOk) : (copyRange src dst n s).MemOk :=
  foldl_keeps (P := State.MemOk) (fun _ _ h => copySector_keeps _ _ h) _ _ h

theorem migCopyLine_keeps (bh i : Nat) {s : State} (h : s.MemOk) : (migCopyLine s bh i).MemOk := by
  have hc := copySector_keeps (migOld (Map.get 0 (s.bu bh).migs i) + 64 * migPtr (Map.get 0 (s.bu bh).migs i))
    (migNew (Map.get 0 (s.bu bh).migs i) + 64 * migPtr (Map.get 0 (s.bu bh).migs i)) h
  unfold migCopyLine
  dsimp only
  split
  · split
    · split
      · refine completeTo_keeps _ _ (State.MemOk.of_mem hc ?_)
        simp
      · refine State.MemOk.of_mem hc ?_
        simp
    · refine State.MemOk.of_mem hc ?_
      simp
  · exact h

theorem lineHome_keeps (pa : Nat) {s : State} (h : s.MemOk) : (lineHome s pa).1.MemOk := by
  unfold lineHome
  split
  · exact h
  · dsimp only
    split
    · exact h
    · split
      · exact migCopyLine_keeps _ _ h
      · exact h

@[simp] theorem wantStop_mem (r why : Nat) (s : State) : (wantStop r why s).mem = s.mem := by
  unfold wantStop
  simp

theorem watchAt_keeps (g : Agent) (bh : Nat) (rd wr : Option (Nat × Nat)) (data : List Byte) {s : State} (h : s.MemOk) :
    (watchAt g bh rd wr data s).MemOk := by
  unfold watchAt
  split
  · exact h
  · refine foldl_keeps (P := State.MemOk) (fun s w h => ?_) _ _ h
    dsimp only
    split
    · exact State.MemOk.of_mem (trace_keeps _ _ _ h) (wantStop_mem ..)
    · exact h

theorem watchHit_keeps (g : Agent) (rd wr : Bool) (pa n : Nat) (data : List Byte) {s : State} (h : s.MemOk) :
    (watchHit g rd wr pa n data s).MemOk := watchAt_keeps _ _ _ _ _ h

@[simp] theorem cacheLine_mem (pa : Nat) (d : Bool) (s : State) : (cacheLine pa d s).mem = s.mem := by
  unfold cacheLine
  split <;> rfl

theorem sideAdd_keeps (pa lo n : Nat) {s : State} (h : s.MemOk) : (sideAdd pa lo n s).MemOk := by
  unfold sideAdd
  split
  · exact h
  · exact put_keeps _ _ h

theorem remoteAdd_keeps (g : Agent) (p : Piece) {s : State} (h : s.MemOk) : (remoteAdd g p s).MemOk := by
  unfold remoteAdd
  split
  · exact h
  · exact sideAdd_keeps _ _ _ h

/-- A sector opened for a partial write is written corrected. -/
theorem openLine_keeps (sec o n : Nat) {s : State} (h : s.MemOk) : (openLine sec o n s).MemOk := by
  unfold openLine
  generalize (Memory.rds s.mem (64 * sec) 64).zipIdx = x
  split
  · exact h
  · dsimp only
    generalize x.map _ = bs
    have hw := rawWrite_keeps (64 * sec) bs h
    generalize s.rawWrite (64 * sec) bs = t at hw ⊢
    exact State.MemOk.of_mem hw (by simp)

theorem putLine_keeps (pa : Nat) (bs : List Byte) {s : State} (h : s.MemOk) : (putLine pa bs s).MemOk := by
  unfold putLine
  dsimp only
  generalize hq : (if bs.length = 64 then setPoison (pa / 64) false s else openLine (pa / 64) (pa % 64) bs.length s) = q
  have hk : q.MemOk := by
    rw [← hq]
    split
    · exact State.MemOk.of_mem h rfl
    · exact openLine_keeps _ _ _ h
  exact State.MemOk.of_mem (rawWrite_keeps pa bs hk) (by rw [cacheLine_mem, elide_mem])

theorem writeLine_keeps (g : Agent) (pa : Nat) (bs : List Byte) {s : State} (h : s.MemOk) : (writeLine g pa bs s).MemOk :=
  putLine_keeps _ _ (watchHit_keeps _ _ _ _ _ _ h)

theorem bounceLine_keeps (g : Agent) (pa : Nat) (bs : List Byte) (bad : Bool) {s : State} (h : s.MemOk) :
    (bounceLine g pa bs bad s).MemOk :=
  State.MemOk.of_mem (watchHit_keeps g false true pa (if bad then 64 else bs.length) bs h) rfl

/-- Poisoning a line changes no byte but those that a move of the line copies. -/
theorem poisonLine_keeps (g : Agent) (pa : Nat) {s : State} (h : s.MemOk) : (poisonLine g pa s).1.MemOk := by
  have h := lineHome_keeps (pa / 64 * 64) h
  unfold poisonLine
  dsimp only
  split
  · exact State.MemOk.of_mem (watchHit_keeps g false true _ 64 [] h) rfl
  · exact bounceLine_keeps _ _ _ _ h
  · exact h
theorem poisonSectors_keeps (g : Agent) (pa n : Nat) {s : State} (h : s.MemOk) : (poisonSectors g pa n s).MemOk := by
  unfold poisonSectors
  split
  · exact h
  · exact foldl_keeps (P := State.MemOk) (fun _ _ h => poisonLine_keeps _ _ h) _ _ h

theorem writePiece_keeps (g : Agent) (p : Piece) (bs : List Byte) {s : State} (h : s.MemOk) : (writePiece g p bs s).1.MemOk := by
  unfold writePiece
  refine foldl_keeps (P := fun a : State × Result => a.1.MemOk) (fun a e h => ?_) _ _ h
  have h := lineHome_keeps e.2.1 h
  dsimp only
  split
  · exact writeLine_keeps _ _ _ h
  · exact bounceLine_keeps _ _ _ _ h
  · exact h

theorem readPiece_keeps (g : Agent) (p : Piece) {o : ReadOut} (h : o.st.MemOk) : (readPiece g p o).st.MemOk := by
  unfold readPiece
  refine foldl_keeps (P := fun o : ReadOut => o.st.MemOk) (fun o e h => ?_) _ _ h
  dsimp only
  split
  · exact h
  · dsimp only
    have hw := watchHit_keeps g true false (lineHome o.st e.2.1).2 e.2.2 [] (lineHome_keeps e.2.1 h)
    split
    · exact State.MemOk.of_mem hw (by simp)
    · exact State.MemOk.of_mem hw (by simp)

theorem readPieces_keeps (g : Agent) (ps : List Piece) {s : State} (h : s.MemOk) : (readPieces g ps s).st.MemOk :=
  foldl_keeps (P := fun o : ReadOut => o.st.MemOk) (fun _ p h => readPiece_keeps g p h) ps _ h

theorem performStore_keeps (g : Agent) (p : Piece) (bs : List Byte) {s : State} (h : s.MemOk) : (performStore g p bs s).1.MemOk := by
  unfold performStore
  split
  · exact writePiece_keeps g p bs (remoteAdd_keeps g p h)
  · exact h

theorem performLane_keeps (g : Agent) (k : Right) (lane : Nat) (ps : List Piece) {s : State} (h : s.MemOk) :
    (performLane g k lane ps s).1.MemOk := by
  unfold performLane
  split
  · exact h
  · dsimp only
    refine readPieces_keeps g ps ?_
    exact foldl_keeps (P := State.MemOk) (fun s p h => remoteAdd_keeps g p h) _ _ h

theorem performLanes_keeps (g : Agent) (k : Right) (ls : List (Nat × List Piece)) {s : State} (h : s.MemOk) :
    (performLanes g k ls s).1.MemOk := by
  unfold performLanes
  exact foldl_keeps (P := fun a : State × List Got => a.1.MemOk) (fun a l h => performLane_keeps g k l.1 l.2 h) _ _ h

@[simp] theorem addRange_mem (u pa n : Nat) (s : State) : (addRange u pa n s).mem = s.mem := by
  unfold addRange
  dsimp only
  split <;> rfl

@[simp] theorem addRangeOf_mem (u gen pa n : Nat) (s : State) : (addRangeOf u gen pa n s).mem = s.mem := by
  unfold addRangeOf
  split
  · exact addRange_mem ..
  · rfl

/-- A read and write as one access. -/
theorem readWrite_keeps (g : Agent) (gen : Nat) (p : Piece) (f : List Byte → Option (List Byte)) {s : State} (h : s.MemOk) :
    (readWrite g gen p f s).1.MemOk := by
  unfold readWrite
  have h := performLane_keeps { g with whole := true } .a 0 [p] h
  dsimp only
  split
  · have h := watchHit_keeps g true (f (performLane { g with whole := true } .a 0 [p] s).2.bytes).isSome
      (lineHome (performLane { g with whole := true } .a 0 [p] s).1 p.pa).2 p.n
      ((f (performLane { g with whole := true } .a 0 [p] s).2.bytes).getD []) h
    split
    · exact State.MemOk.of_mem (writePiece_keeps _ _ _ h) (addRangeOf_mem ..)
    · exact h
  · exact h
theorem performAtomic_keeps (g : Agent) (gen : Nat) (a : Atomic) (p : Piece) {s : State} (h : s.MemOk) :
    (performAtomic g gen a p s).1.MemOk := readWrite_keeps _ _ _ _ h

/-! ### The fabric carries packets and changes no byte -/

@[simp] theorem goRetrain_mem (e : Nat) (s : State) : (goRetrain e s).mem = s.mem := rfl
@[simp] theorem keySwitch_mem (e : Nat) (s : State) : (keySwitch e s).mem = s.mem := by
  unfold keySwitch
  dsimp only
  repeat' split
  all_goals rfl
@[simp] theorem sendIdle_mem (e : Nat) (s : State) : (sendIdle e s).mem = s.mem := by
  unfold sendIdle
  dsimp only
  split <;> simp
@[simp] theorem sendFlit_mem (e : Nat) (p : Plain) (s : State) : (sendFlit e p s).mem = s.mem := by
  unfold sendFlit
  dsimp only
  repeat' split
  all_goals simp
@[simp] theorem Packet.send_mem (k : Packet) (n : Nat) (s : State) : (k.send n s).mem = s.mem := by simp [Packet.send]
@[simp] theorem sendOver_mem (k : Option Packet) (s : State) : (sendOver k s).mem = s.mem := by cases k <;> simp [sendOver]
@[simp] theorem nextTxid_mem (k : Packet) (s : State) : (nextTxid k s).1.mem = s.mem := rfl

theorem askOut_keeps (i : Nat) (ks : List Packet) {s : State} (h : s.MemOk) : (askOut i ks s).MemOk := by
  unfold askOut
  exact foldl_keeps (P := fun a : State × List (Nat × Nat) => a.1.MemOk) (fun a k h => State.MemOk.of_mem h (by simp)) _ _ h
theorem answerOut_keeps (i : Nat) (rs : List (Option Packet)) {s : State} (h : s.MemOk) : (answerOut i rs s).MemOk := by
  unfold answerOut
  dsimp only
  split
  · exact h
  · exact foldl_keeps (P := State.MemOk) (fun a e h => State.MemOk.of_mem h (by simp)) _ _ h
theorem flightOut_keeps (s0 : State) (e : Nat × Flight) {s : State} (h : s.MemOk) : (flightOut s0 s e).MemOk := by
  unfold flightOut
  dsimp only
  repeat' split
  all_goals first | exact h | skip
  all_goals first | exact answerOut_keeps _ _ h | exact askOut_keeps _ _ h | skip
  all_goals first | exact answerOut_keeps _ _ (State.MemOk.of_mem h (sendOver_mem ..)) | exact State.MemOk.of_mem h (sendOver_mem ..)
theorem crossedOut_keeps {s : State} (h : s.MemOk) : (crossedOut s).MemOk := by
  unfold crossedOut
  refine foldl_keeps (P := State.MemOk) (fun s x h => foldl_keeps (P := State.MemOk) (fun s q h => ?_) _ _ h) _ _ h
  dsimp only
  split <;> exact State.MemOk.of_mem h (by simp)
theorem sparesOut_keeps (s0 : State) {s : State} (h : s.MemOk) : (sparesOut s0 s).MemOk := by
  unfold sparesOut
  refine foldl_keeps (P := State.MemOk) (fun s e h => foldl_keeps (P := State.MemOk) (fun s i h => ?_) _ _ h) _ _ h
  dsimp only
  repeat' split
  all_goals first | exact h | skip
  all_goals exact State.MemOk.of_mem h (by simp)
/-- What is put on the fabric changes no byte of memory. -/
theorem wireOut_keeps (s0 : State) {s : State} (h : s.MemOk) : (wireOut s0 s).MemOk :=
  sparesOut_keeps s0 (crossedOut_keeps (foldl_keeps (P := State.MemOk) (fun _ e h => flightOut_keeps s0 e h) _ _ h))

end Sys2Proof.Machine
end

