-- ==== Sys2Proof/Laws/PerInstr.lean ====
section
/-! SUPPORT. Laws/PerInstr.lean: what holds of every instruction as syntax, one lemma per constructor. -/

namespace Sys2Proof.Laws

set_option Elab.async false

/-- The instruction that a raw form names, before any decode check. -/
def Fields.named : Raw → Option Instr
  | .base op g hi lit => baseInstr op g hi lit
  | .ext op g v d a b w2 lit => extInstr op g v d a b w2 lit

/-- The constructor and the fields that an instruction's raw form names are the instruction's own, so that laying it out in words
drops no bit of it (R146 to R163). A step of the table that no word names has no raw form. -/
def Fields.Statement (i : Instr) : Prop := ∀ r, i.toRaw = some r → Fields.named r = some i

/-- From the one raw form that an instruction has. -/
theorem Fields.of_raw {i : Instr} {r : Raw} (h : i.toRaw = some r) (e : Fields.named r = some i) : Fields.Statement i :=
  fun _ h' => (congrArg Fields.named (Option.some.inj (h'.symm.trans h))).trans e
/-- A step that no word names. -/
theorem Fields.of_none {i : Instr} (h : i.toRaw = none) : Fields.Statement i := fun _ h' => nomatch h.symm.trans h'

theorem Fields.nop : ∀ x0, Fields.Statement (.nop x0) := fun _ => Fields.of_raw rfl rfl
theorem Fields.nopExt : ∀ x0 x1, Fields.Statement (.nopExt x0 x1) := fun x0 x1 => Fields.of_raw rfl (congrArg (fun z => some (Instr.nopExt x0 z)) (XA.ofWords_w2 x1))
theorem Fields.br : ∀ x0 x1, Fields.Statement (.br x0 x1) := fun _ _ => Fields.of_raw rfl rfl
theorem Fields.brx : ∀ x0 x1, Fields.Statement (.brx x0 x1) := fun x0 x1 => Fields.of_raw rfl (congrArg (fun z => some (Instr.brx x0 z)) (hiOf_a 0 x1 0))
theorem Fields.brxExt : ∀ x0 x1, Fields.Statement (.brxExt x0 x1) := fun x0 x1 => Fields.of_raw rfl (congrArg (fun z => some (Instr.brxExt x0 z)) (XA.ofWords_w2 x1))
theorem Fields.call : ∀ x0 x1, Fields.Statement (.call x0 x1) := fun _ _ => Fields.of_raw rfl rfl
theorem Fields.callx : ∀ x0 x1, Fields.Statement (.callx x0 x1) := fun x0 x1 => Fields.of_raw rfl (congrArg (fun z => some (Instr.callx x0 z)) (BU.ofHi_hi x1))
theorem Fields.callxExt : ∀ x0 x1, Fields.Statement (.callxExt x0 x1) := fun x0 x1 => Fields.of_raw rfl (congrArg (fun z => some (Instr.callxExt x0 z)) (XA.ofWords_w2 x1))
theorem Fields.ret : ∀ x0 x1, Fields.Statement (.ret x0 x1) := fun x0 x1 => Fields.of_raw rfl (congrArg (fun z => some (Instr.ret x0 z)) (hiOf_a 0 x1 0))
theorem Fields.retExt : ∀ x0 x1, Fields.Statement (.retExt x0 x1) := fun x0 x1 => Fields.of_raw rfl (congrArg (fun z => some (Instr.retExt x0 z)) (XA.ofWords_w2 x1))
theorem Fields.rep : ∀ x0 x1, Fields.Statement (.rep x0 x1) := fun x0 x1 => Fields.of_raw rfl (congrArg (fun z => some (Instr.rep x0 z)) (XA.ofWords_w2 x1))
theorem Fields.done : ∀ x0, Fields.Statement (.done x0) := fun _ => Fields.of_raw rfl rfl
theorem Fields.doneExt : ∀ x0 x1, Fields.Statement (.doneExt x0 x1) := fun x0 x1 => Fields.of_raw rfl (congrArg (fun z => some (Instr.doneExt x0 z)) (XA.ofWords_w2 x1))
theorem Fields.iadd : ∀ x0 x1, Fields.Statement (.iadd x0 x1) := fun x0 x1 => Fields.of_raw rfl (congrArg (fun z => some (Instr.iadd x0 z)) (B3.ofHi_hi x1))
theorem Fields.iaddExt : ∀ x0 x1, Fields.Statement (.iaddExt x0 x1) := fun x0 x1 => Fields.of_raw rfl (congrArg (fun z => some (Instr.iaddExt x0 z)) (XA.ofWords_w2 x1))
theorem Fields.isub : ∀ x0 x1, Fields.Statement (.isub x0 x1) := fun x0 x1 => Fields.of_raw rfl (congrArg (fun z => some (Instr.isub x0 z)) (B3.ofHi_hi x1))
theorem Fields.isubExt : ∀ x0 x1, Fields.Statement (.isubExt x0 x1) := fun x0 x1 => Fields.of_raw rfl (congrArg (fun z => some (Instr.isubExt x0 z)) (XA.ofWords_w2 x1))
theorem Fields.imul : ∀ x0 x1, Fields.Statement (.imul x0 x1) := fun x0 x1 => Fields.of_raw rfl (congrArg (fun z => some (Instr.imul x0 z)) (B3.ofHi_hi x1))
theorem Fields.imulExt : ∀ x0 x1, Fields.Statement (.imulExt x0 x1) := fun x0 x1 => Fields.of_raw rfl (congrArg (fun z => some (Instr.imulExt x0 z)) (XA.ofWords_w2 x1))
theorem Fields.imulh : ∀ x0 x1, Fields.Statement (.imulh x0 x1) := fun x0 x1 => Fields.of_raw rfl (congrArg (fun z => some (Instr.imulh x0 z)) (B3.ofHi_hi x1))
theorem Fields.imulhExt : ∀ x0 x1, Fields.Statement (.imulhExt x0 x1) := fun x0 x1 => Fields.of_raw rfl (congrArg (fun z => some (Instr.imulhExt x0 z)) (XA.ofWords_w2 x1))
theorem Fields.imulhu : ∀ x0 x1, Fields.Statement (.imulhu x0 x1) := fun x0 x1 => Fields.of_raw rfl (congrArg (fun z => some (Instr.imulhu x0 z)) (B3.ofHi_hi x1))
theorem Fields.imulhuExt : ∀ x0 x1, Fields.Statement (.imulhuExt x0 x1) := fun x0 x1 => Fields.of_raw rfl (congrArg (fun z => some (Instr.imulhuExt x0 z)) (XA.ofWords_w2 x1))
theorem Fields.idiv : ∀ x0 x1, Fields.Statement (.idiv x0 x1) := fun x0 x1 => Fields.of_raw rfl (congrArg (fun z => some (Instr.idiv x0 z)) (B3.ofHi_hi x1))
theorem Fields.idivExt : ∀ x0 x1, Fields.Statement (.idivExt x0 x1) := fun x0 x1 => Fields.of_raw rfl (congrArg (fun z => some (Instr.idivExt x0 z)) (XA.ofWords_w2 x1))
theorem Fields.idivu : ∀ x0 x1, Fields.Statement (.idivu x0 x1) := fun x0 x1 => Fields.of_raw rfl (congrArg (fun z => some (Instr.idivu x0 z)) (B3.ofHi_hi x1))
theorem Fields.idivuExt : ∀ x0 x1, Fields.Statement (.idivuExt x0 x1) := fun x0 x1 => Fields.of_raw rfl (congrArg (fun z => some (Instr.idivuExt x0 z)) (XA.ofWords_w2 x1))
theorem Fields.irem : ∀ x0 x1, Fields.Statement (.irem x0 x1) := fun x0 x1 => Fields.of_raw rfl (congrArg (fun z => some (Instr.irem x0 z)) (B3.ofHi_hi x1))
theorem Fields.iremExt : ∀ x0 x1, Fields.Statement (.iremExt x0 x1) := fun x0 x1 => Fields.of_raw rfl (congrArg (fun z => some (Instr.iremExt x0 z)) (XA.ofWords_w2 x1))
theorem Fields.iremu : ∀ x0 x1, Fields.Statement (.iremu x0 x1) := fun x0 x1 => Fields.of_raw rfl (congrArg (fun z => some (Instr.iremu x0 z)) (B3.ofHi_hi x1))
theorem Fields.iremuExt : ∀ x0 x1, Fields.Statement (.iremuExt x0 x1) := fun x0 x1 => Fields.of_raw rfl (congrArg (fun z => some (Instr.iremuExt x0 z)) (XA.ofWords_w2 x1))
theorem Fields.imin : ∀ x0 x1, Fields.Statement (.imin x0 x1) := fun x0 x1 => Fields.of_raw rfl (congrArg (fun z => some (Instr.imin x0 z)) (B3.ofHi_hi x1))
theorem Fields.iminExt : ∀ x0 x1, Fields.Statement (.iminExt x0 x1) := fun x0 x1 => Fields.of_raw rfl (congrArg (fun z => some (Instr.iminExt x0 z)) (XA.ofWords_w2 x1))
theorem Fields.imax : ∀ x0 x1, Fields.Statement (.imax x0 x1) := fun x0 x1 => Fields.of_raw rfl (congrArg (fun z => some (Instr.imax x0 z)) (B3.ofHi_hi x1))
theorem Fields.imaxExt : ∀ x0 x1, Fields.Statement (.imaxExt x0 x1) := fun x0 x1 => Fields.of_raw rfl (congrArg (fun z => some (Instr.imaxExt x0 z)) (XA.ofWords_w2 x1))
theorem Fields.iminu : ∀ x0 x1, Fields.Statement (.iminu x0 x1) := fun x0 x1 => Fields.of_raw rfl (congrArg (fun z => some (Instr.iminu x0 z)) (B3.ofHi_hi x1))
theorem Fields.iminuExt : ∀ x0 x1, Fields.Statement (.iminuExt x0 x1) := fun x0 x1 => Fields.of_raw rfl (congrArg (fun z => some (Instr.iminuExt x0 z)) (XA.ofWords_w2 x1))
theorem Fields.imaxu : ∀ x0 x1, Fields.Statement (.imaxu x0 x1) := fun x0 x1 => Fields.of_raw rfl (congrArg (fun z => some (Instr.imaxu x0 z)) (B3.ofHi_hi x1))
theorem Fields.imaxuExt : ∀ x0 x1, Fields.Statement (.imaxuExt x0 x1) := fun x0 x1 => Fields.of_raw rfl (congrArg (fun z => some (Instr.imaxuExt x0 z)) (XA.ofWords_w2 x1))
theorem Fields.iabs : ∀ x0 x1, Fields.Statement (.iabs x0 x1) := fun x0 x1 => Fields.of_raw rfl (congrArg (fun z => some (Instr.iabs x0 z)) (BU.ofHi_hi x1))
theorem Fields.iabsExt : ∀ x0 x1, Fields.Statement (.iabsExt x0 x1) := fun x0 x1 => Fields.of_raw rfl (congrArg (fun z => some (Instr.iabsExt x0 z)) (XA.ofWords_w2 x1))
theorem Fields.ineg : ∀ x0 x1, Fields.Statement (.ineg x0 x1) := fun x0 x1 => Fields.of_raw rfl (congrArg (fun z => some (Instr.ineg x0 z)) (BU.ofHi_hi x1))
theorem Fields.inegExt : ∀ x0 x1, Fields.Statement (.inegExt x0 x1) := fun x0 x1 => Fields.of_raw rfl (congrArg (fun z => some (Instr.inegExt x0 z)) (XA.ofWords_w2 x1))
theorem Fields.and : ∀ x0 x1, Fields.Statement (.and x0 x1) := fun x0 x1 => Fields.of_raw rfl (congrArg (fun z => some (Instr.and x0 z)) (B3.ofHi_hi x1))
theorem Fields.andExt : ∀ x0 x1, Fields.Statement (.andExt x0 x1) := fun x0 x1 => Fields.of_raw rfl (congrArg (fun z => some (Instr.andExt x0 z)) (XA.ofWords_w2 x1))
theorem Fields.or : ∀ x0 x1, Fields.Statement (.or x0 x1) := fun x0 x1 => Fields.of_raw rfl (congrArg (fun z => some (Instr.or x0 z)) (B3.ofHi_hi x1))
theorem Fields.orExt : ∀ x0 x1, Fields.Statement (.orExt x0 x1) := fun x0 x1 => Fields.of_raw rfl (congrArg (fun z => some (Instr.orExt x0 z)) (XA.ofWords_w2 x1))
theorem Fields.xor : ∀ x0 x1, Fields.Statement (.xor x0 x1) := fun x0 x1 => Fields.of_raw rfl (congrArg (fun z => some (Instr.xor x0 z)) (B3.ofHi_hi x1))
theorem Fields.xorExt : ∀ x0 x1, Fields.Statement (.xorExt x0 x1) := fun x0 x1 => Fields.of_raw rfl (congrArg (fun z => some (Instr.xorExt x0 z)) (XA.ofWords_w2 x1))
theorem Fields.andn : ∀ x0 x1, Fields.Statement (.andn x0 x1) := fun x0 x1 => Fields.of_raw rfl (congrArg (fun z => some (Instr.andn x0 z)) (B3.ofHi_hi x1))
theorem Fields.andnExt : ∀ x0 x1, Fields.Statement (.andnExt x0 x1) := fun x0 x1 => Fields.of_raw rfl (congrArg (fun z => some (Instr.andnExt x0 z)) (XA.ofWords_w2 x1))
theorem Fields.orn : ∀ x0 x1, Fields.Statement (.orn x0 x1) := fun x0 x1 => Fields.of_raw rfl (congrArg (fun z => some (Instr.orn x0 z)) (B3.ofHi_hi x1))
theorem Fields.ornExt : ∀ x0 x1, Fields.Statement (.ornExt x0 x1) := fun x0 x1 => Fields.of_raw rfl (congrArg (fun z => some (Instr.ornExt x0 z)) (XA.ofWords_w2 x1))
theorem Fields.shl : ∀ x0 x1, Fields.Statement (.shl x0 x1) := fun x0 x1 => Fields.of_raw rfl (congrArg (fun z => some (Instr.shl x0 z)) (B3.ofHi_hi x1))
theorem Fields.shlExt : ∀ x0 x1, Fields.Statement (.shlExt x0 x1) := fun x0 x1 => Fields.of_raw rfl (congrArg (fun z => some (Instr.shlExt x0 z)) (XA.ofWords_w2 x1))
theorem Fields.shr : ∀ x0 x1, Fields.Statement (.shr x0 x1) := fun x0 x1 => Fields.of_raw rfl (congrArg (fun z => some (Instr.shr x0 z)) (B3.ofHi_hi x1))
theorem Fields.shrExt : ∀ x0 x1, Fields.Statement (.shrExt x0 x1) := fun x0 x1 => Fields.of_raw rfl (congrArg (fun z => some (Instr.shrExt x0 z)) (XA.ofWords_w2 x1))
theorem Fields.sar : ∀ x0 x1, Fields.Statement (.sar x0 x1) := fun x0 x1 => Fields.of_raw rfl (congrArg (fun z => some (Instr.sar x0 z)) (B3.ofHi_hi x1))
theorem Fields.sarExt : ∀ x0 x1, Fields.Statement (.sarExt x0 x1) := fun x0 x1 => Fields.of_raw rfl (congrArg (fun z => some (Instr.sarExt x0 z)) (XA.ofWords_w2 x1))
theorem Fields.rol : ∀ x0 x1, Fields.Statement (.rol x0 x1) := fun x0 x1 => Fields.of_raw rfl (congrArg (fun z => some (Instr.rol x0 z)) (B3.ofHi_hi x1))
theorem Fields.rolExt : ∀ x0 x1, Fields.Statement (.rolExt x0 x1) := fun x0 x1 => Fields.of_raw rfl (congrArg (fun z => some (Instr.rolExt x0 z)) (XA.ofWords_w2 x1))
theorem Fields.clz : ∀ x0 x1, Fields.Statement (.clz x0 x1) := fun x0 x1 => Fields.of_raw rfl (congrArg (fun z => some (Instr.clz x0 z)) (BU.ofHi_hi x1))
theorem Fields.clzExt : ∀ x0 x1, Fields.Statement (.clzExt x0 x1) := fun x0 x1 => Fields.of_raw rfl (congrArg (fun z => some (Instr.clzExt x0 z)) (XA.ofWords_w2 x1))
theorem Fields.ctz : ∀ x0 x1, Fields.Statement (.ctz x0 x1) := fun x0 x1 => Fields.of_raw rfl (congrArg (fun z => some (Instr.ctz x0 z)) (BU.ofHi_hi x1))
theorem Fields.ctzExt : ∀ x0 x1, Fields.Statement (.ctzExt x0 x1) := fun x0 x1 => Fields.of_raw rfl (congrArg (fun z => some (Instr.ctzExt x0 z)) (XA.ofWords_w2 x1))
theorem Fields.popc : ∀ x0 x1, Fields.Statement (.popc x0 x1) := fun x0 x1 => Fields.of_raw rfl (congrArg (fun z => some (Instr.popc x0 z)) (BU.ofHi_hi x1))
theorem Fields.popcExt : ∀ x0 x1, Fields.Statement (.popcExt x0 x1) := fun x0 x1 => Fields.of_raw rfl (congrArg (fun z => some (Instr.popcExt x0 z)) (XA.ofWords_w2 x1))
theorem Fields.sext : ∀ x0 x1, Fields.Statement (.sext x0 x1) := fun x0 x1 => Fields.of_raw rfl (congrArg (fun z => some (Instr.sext x0 z)) (XA.ofWords_w2 x1))
theorem Fields.zext : ∀ x0 x1, Fields.Statement (.zext x0 x1) := fun x0 x1 => Fields.of_raw rfl (congrArg (fun z => some (Instr.zext x0 z)) (XA.ofWords_w2 x1))
theorem Fields.bfx : ∀ x0 x1, Fields.Statement (.bfx x0 x1) := fun x0 x1 => Fields.of_raw rfl (congrArg (fun z => some (Instr.bfx x0 z)) (XA.ofWords_w2 x1))
theorem Fields.bfi : ∀ x0 x1, Fields.Statement (.bfi x0 x1) := fun x0 x1 => Fields.of_raw rfl (congrArg (fun z => some (Instr.bfi x0 z)) (XA.ofWords_w2 x1))
theorem Fields.mov : ∀ x0 x1, Fields.Statement (.mov x0 x1) := fun x0 x1 => Fields.of_raw rfl (congrArg (fun z => some (Instr.mov x0 z)) (BU.ofHi_hi x1))
theorem Fields.movExt : ∀ x0 x1, Fields.Statement (.movExt x0 x1) := fun x0 x1 => Fields.of_raw rfl (congrArg (fun z => some (Instr.movExt x0 z)) (XA.ofWords_w2 x1))
theorem Fields.li : ∀ x0 x1, Fields.Statement (.li x0 x1) := fun x0 x1 => Fields.of_raw rfl (congrArg (fun z => some (Instr.li x0 z)) (BI.ofHi_hi x1))
theorem Fields.liExt : ∀ x0 x1, Fields.Statement (.liExt x0 x1) := fun x0 x1 => Fields.of_raw rfl (congrArg (fun z => some (Instr.liExt x0 z)) (XA.ofWords_w2 x1))
theorem Fields.lea : ∀ x0 x1, Fields.Statement (.lea x0 x1) := fun x0 x1 => Fields.of_raw rfl (congrArg (fun z => some (Instr.lea x0 z)) (B3.ofHi_hi x1))
theorem Fields.leaExt : ∀ x0 x1, Fields.Statement (.leaExt x0 x1) := fun x0 x1 => Fields.of_raw rfl (congrArg (fun z => some (Instr.leaExt x0 z)) (XA.ofWords_w2 x1))
theorem Fields.sel : ∀ x0 x1, Fields.Statement (.sel x0 x1) := fun x0 x1 => Fields.of_raw rfl (congrArg (fun z => some (Instr.sel x0 z)) (XA.ofWords_w2 x1))
theorem Fields.icmpEq : ∀ x0 x1, Fields.Statement (.icmpEq x0 x1) := fun x0 x1 => Fields.of_raw rfl (congrArg (fun z => some (Instr.icmpEq x0 z)) (BC.ofHi_hi x1))
theorem Fields.icmpEqExt : ∀ x0 x1, Fields.Statement (.icmpEqExt x0 x1) := fun x0 x1 => Fields.of_raw rfl (congrArg (fun z => some (Instr.icmpEqExt x0 z)) (XA.ofWords_w2 x1))
theorem Fields.icmpNe : ∀ x0 x1, Fields.Statement (.icmpNe x0 x1) := fun x0 x1 => Fields.of_raw rfl (congrArg (fun z => some (Instr.icmpNe x0 z)) (BC.ofHi_hi x1))
theorem Fields.icmpNeExt : ∀ x0 x1, Fields.Statement (.icmpNeExt x0 x1) := fun x0 x1 => Fields.of_raw rfl (congrArg (fun z => some (Instr.icmpNeExt x0 z)) (XA.ofWords_w2 x1))
theorem Fields.icmpLt : ∀ x0 x1, Fields.Statement (.icmpLt x0 x1) := fun x0 x1 => Fields.of_raw rfl (congrArg (fun z => some (Instr.icmpLt x0 z)) (BC.ofHi_hi x1))
theorem Fields.icmpLtExt : ∀ x0 x1, Fields.Statement (.icmpLtExt x0 x1) := fun x0 x1 => Fields.of_raw rfl (congrArg (fun z => some (Instr.icmpLtExt x0 z)) (XA.ofWords_w2 x1))
theorem Fields.icmpLe : ∀ x0 x1, Fields.Statement (.icmpLe x0 x1) := fun x0 x1 => Fields.of_raw rfl (congrArg (fun z => some (Instr.icmpLe x0 z)) (BC.ofHi_hi x1))
theorem Fields.icmpLeExt : ∀ x0 x1, Fields.Statement (.icmpLeExt x0 x1) := fun x0 x1 => Fields.of_raw rfl (congrArg (fun z => some (Instr.icmpLeExt x0 z)) (XA.ofWords_w2 x1))
theorem Fields.icmpLtu : ∀ x0 x1, Fields.Statement (.icmpLtu x0 x1) := fun x0 x1 => Fields.of_raw rfl (congrArg (fun z => some (Instr.icmpLtu x0 z)) (BC.ofHi_hi x1))
theorem Fields.icmpLtuExt : ∀ x0 x1, Fields.Statement (.icmpLtuExt x0 x1) := fun x0 x1 => Fields.of_raw rfl (congrArg (fun z => some (Instr.icmpLtuExt x0 z)) (XA.ofWords_w2 x1))
theorem Fields.icmpLeu : ∀ x0 x1, Fields.Statement (.icmpLeu x0 x1) := fun x0 x1 => Fields.of_raw rfl (congrArg (fun z => some (Instr.icmpLeu x0 z)) (BC.ofHi_hi x1))
theorem Fields.icmpLeuExt : ∀ x0 x1, Fields.Statement (.icmpLeuExt x0 x1) := fun x0 x1 => Fields.of_raw rfl (congrArg (fun z => some (Instr.icmpLeuExt x0 z)) (XA.ofWords_w2 x1))
theorem Fields.gop : ∀ x0 x1, Fields.Statement (.gop x0 x1) := fun x0 x1 => Fields.of_raw rfl (congrArg (fun z => some (Instr.gop x0 z)) (XA.ofWords_w2 x1))
theorem Fields.gmov : ∀ x0 x1, Fields.Statement (.gmov x0 x1) := fun x0 x1 => Fields.of_raw rfl (congrArg (fun z => some (Instr.gmov x0 z)) (XA.ofWords_w2 x1))
theorem Fields.smov : ∀ x0 x1, Fields.Statement (.smov x0 x1) := fun x0 x1 => Fields.of_raw rfl (congrArg (fun z => some (Instr.smov x0 z)) (XA.ofWords_w2 x1))
theorem Fields.spill : ∀ x0 x1, Fields.Statement (.spill x0 x1) := fun x0 x1 => Fields.of_raw rfl (congrArg (fun z => some (Instr.spill x0 z)) (XA.ofWords_w2 x1))
theorem Fields.fill : ∀ x0 x1, Fields.Statement (.fill x0 x1) := fun x0 x1 => Fields.of_raw rfl (congrArg (fun z => some (Instr.fill x0 z)) (XA.ofWords_w2 x1))
theorem Fields.iaddi : ∀ x0 x1, Fields.Statement (.iaddi x0 x1) := fun x0 x1 => Fields.of_raw rfl (congrArg (fun z => some (Instr.iaddi x0 z)) (BI.ofHi_hi x1))
theorem Fields.ld : ∀ x0 x1, Fields.Statement (.ld x0 x1) := fun x0 x1 => Fields.of_raw rfl (congrArg (fun z => some (Instr.ld x0 z)) (XM.ofWords_w2 x1))
theorem Fields.st : ∀ x0 x1, Fields.Statement (.st x0 x1) := fun x0 x1 => Fields.of_raw rfl (congrArg (fun z => some (Instr.st x0 z)) (XM.ofWords_w2 x1))
theorem Fields.vld : ∀ x0 x1, Fields.Statement (.vld x0 x1) := fun x0 x1 => Fields.of_raw rfl (congrArg (fun z => some (Instr.vld x0 z)) (XM.ofWords_w2 x1))
theorem Fields.vst : ∀ x0 x1, Fields.Statement (.vst x0 x1) := fun x0 x1 => Fields.of_raw rfl (congrArg (fun z => some (Instr.vst x0 z)) (XM.ofWords_w2 x1))
theorem Fields.amo : ∀ x0 x1, Fields.Statement (.amo x0 x1) := fun x0 x1 => Fields.of_raw rfl (congrArg (fun z => some (Instr.amo x0 z)) (XM.ofWords_w2 x1))
theorem Fields.acas : ∀ x0 x1, Fields.Statement (.acas x0 x1) := fun x0 x1 => Fields.of_raw rfl (congrArg (fun z => some (Instr.acas x0 z)) (XM.ofWords_w2 x1))
theorem Fields.famo : ∀ x0 x1, Fields.Statement (.famo x0 x1) := fun x0 x1 => Fields.of_raw rfl (congrArg (fun z => some (Instr.famo x0 z)) (XM.ofWords_w2 x1))
theorem Fields.mcas : ∀ x0 x1, Fields.Statement (.mcas x0 x1) := fun x0 x1 => Fields.of_raw rfl (congrArg (fun z => some (Instr.mcas x0 z)) (XM.ofWords_w2 x1))
theorem Fields.lenq : ∀ x0 x1, Fields.Statement (.lenq x0 x1) := fun x0 x1 => Fields.of_raw rfl (congrArg (fun z => some (Instr.lenq x0 z)) (XM.ofWords_w2 x1))
theorem Fields.pchase : ∀ x0 x1, Fields.Statement (.pchase x0 x1) := fun x0 x1 => Fields.of_raw rfl (congrArg (fun z => some (Instr.pchase x0 z)) (XM.ofWords_w2 x1))
theorem Fields.fence : ∀ x0 x1, Fields.Statement (.fence x0 x1) := fun x0 x1 => Fields.of_raw rfl (congrArg (fun z => some (Instr.fence x0 z)) (XM.ofWords_w2 x1))
theorem Fields.wait : ∀ x0 x1, Fields.Statement (.wait x0 x1) := fun x0 x1 => Fields.of_raw rfl (congrArg (fun z => some (Instr.wait x0 z)) (XM.ofWords_w2 x1))
theorem Fields.commit : ∀ x0 x1, Fields.Statement (.commit x0 x1) := fun x0 x1 => Fields.of_raw rfl (congrArg (fun z => some (Instr.commit x0 z)) (XM.ofWords_w2 x1))
theorem Fields.cvta : ∀ x0 x1, Fields.Statement (.cvta x0 x1) := fun x0 x1 => Fields.of_raw rfl (congrArg (fun z => some (Instr.cvta x0 z)) (XM.ofWords_w2 x1))
theorem Fields.pf : ∀ x0 x1, Fields.Statement (.pf x0 x1) := fun x0 x1 => Fields.of_raw rfl (congrArg (fun z => some (Instr.pf x0 z)) (XM.ofWords_w2 x1))
theorem Fields.cwb : ∀ x0 x1, Fields.Statement (.cwb x0 x1) := fun x0 x1 => Fields.of_raw rfl (congrArg (fun z => some (Instr.cwb x0 z)) (XM.ofWords_w2 x1))
theorem Fields.send : ∀ x0 x1, Fields.Statement (.send x0 x1) := fun x0 x1 => Fields.of_raw rfl (congrArg (fun z => some (Instr.send x0 z)) (XM.ofWords_w2 x1))
theorem Fields.sendr : ∀ x0 x1, Fields.Statement (.sendr x0 x1) := fun x0 x1 => Fields.of_raw rfl (congrArg (fun z => some (Instr.sendr x0 z)) (XM.ofWords_w2 x1))
theorem Fields.tnow : ∀ x0 x1, Fields.Statement (.tnow x0 x1) := fun x0 x1 => Fields.of_raw rfl (congrArg (fun z => some (Instr.tnow x0 z)) (XM.ofWords_w2 x1))
theorem Fields.tcur : ∀ x0 x1, Fields.Statement (.tcur x0 x1) := fun x0 x1 => Fields.of_raw rfl (congrArg (fun z => some (Instr.tcur x0 z)) (XM.ofWords_w2 x1))
theorem Fields.larm : ∀ x0 x1, Fields.Statement (.larm x0 x1) := fun x0 x1 => Fields.of_raw rfl (congrArg (fun z => some (Instr.larm x0 z)) (XM.ofWords_w2 x1))
theorem Fields.lpatch : ∀ x0 x1, Fields.Statement (.lpatch x0 x1) := fun x0 x1 => Fields.of_raw rfl (congrArg (fun z => some (Instr.lpatch x0 z)) (XM.ofWords_w2 x1))
theorem Fields.lstat : ∀ x0 x1, Fields.Statement (.lstat x0 x1) := fun x0 x1 => Fields.of_raw rfl (congrArg (fun z => some (Instr.lstat x0 z)) (XM.ofWords_w2 x1))
theorem Fields.bar : ∀ x0 x1, Fields.Statement (.bar x0 x1) := fun x0 x1 => Fields.of_raw rfl (congrArg (fun z => some (Instr.bar x0 z)) (XM.ofWords_w2 x1))
theorem Fields.vadd : ∀ x0 x1, Fields.Statement (.vadd x0 x1) := fun x0 x1 => Fields.of_raw rfl (congrArg (fun z => some (Instr.vadd x0 z)) (B3.ofHi_hi x1))
theorem Fields.vaddExt : ∀ x0 x1, Fields.Statement (.vaddExt x0 x1) := fun x0 x1 => Fields.of_raw rfl (congrArg (fun z => some (Instr.vaddExt x0 z)) (XA.ofWords_w2 x1))
theorem Fields.vsub : ∀ x0 x1, Fields.Statement (.vsub x0 x1) := fun x0 x1 => Fields.of_raw rfl (congrArg (fun z => some (Instr.vsub x0 z)) (B3.ofHi_hi x1))
theorem Fields.vsubExt : ∀ x0 x1, Fields.Statement (.vsubExt x0 x1) := fun x0 x1 => Fields.of_raw rfl (congrArg (fun z => some (Instr.vsubExt x0 z)) (XA.ofWords_w2 x1))
theorem Fields.vmul : ∀ x0 x1, Fields.Statement (.vmul x0 x1) := fun x0 x1 => Fields.of_raw rfl (congrArg (fun z => some (Instr.vmul x0 z)) (B3.ofHi_hi x1))
theorem Fields.vmulExt : ∀ x0 x1, Fields.Statement (.vmulExt x0 x1) := fun x0 x1 => Fields.of_raw rfl (congrArg (fun z => some (Instr.vmulExt x0 z)) (XA.ofWords_w2 x1))
theorem Fields.vmulh : ∀ x0 x1, Fields.Statement (.vmulh x0 x1) := fun x0 x1 => Fields.of_raw rfl (congrArg (fun z => some (Instr.vmulh x0 z)) (B3.ofHi_hi x1))
theorem Fields.vmulhExt : ∀ x0 x1, Fields.Statement (.vmulhExt x0 x1) := fun x0 x1 => Fields.of_raw rfl (congrArg (fun z => some (Instr.vmulhExt x0 z)) (XA.ofWords_w2 x1))
theorem Fields.vmad : ∀ x0 x1, Fields.Statement (.vmad x0 x1) := fun x0 x1 => Fields.of_raw rfl (congrArg (fun z => some (Instr.vmad x0 z)) (B3.ofHi_hi x1))
theorem Fields.vmadExt : ∀ x0 x1, Fields.Statement (.vmadExt x0 x1) := fun x0 x1 => Fields.of_raw rfl (congrArg (fun z => some (Instr.vmadExt x0 z)) (XA.ofWords_w2 x1))
theorem Fields.vmin : ∀ x0 x1, Fields.Statement (.vmin x0 x1) := fun x0 x1 => Fields.of_raw rfl (congrArg (fun z => some (Instr.vmin x0 z)) (B3.ofHi_hi x1))
theorem Fields.vminExt : ∀ x0 x1, Fields.Statement (.vminExt x0 x1) := fun x0 x1 => Fields.of_raw rfl (congrArg (fun z => some (Instr.vminExt x0 z)) (XA.ofWords_w2 x1))
theorem Fields.vmax : ∀ x0 x1, Fields.Statement (.vmax x0 x1) := fun x0 x1 => Fields.of_raw rfl (congrArg (fun z => some (Instr.vmax x0 z)) (B3.ofHi_hi x1))
theorem Fields.vmaxExt : ∀ x0 x1, Fields.Statement (.vmaxExt x0 x1) := fun x0 x1 => Fields.of_raw rfl (congrArg (fun z => some (Instr.vmaxExt x0 z)) (XA.ofWords_w2 x1))
theorem Fields.vabs : ∀ x0 x1, Fields.Statement (.vabs x0 x1) := fun x0 x1 => Fields.of_raw rfl (congrArg (fun z => some (Instr.vabs x0 z)) (BU.ofHi_hi x1))
theorem Fields.vabsExt : ∀ x0 x1, Fields.Statement (.vabsExt x0 x1) := fun x0 x1 => Fields.of_raw rfl (congrArg (fun z => some (Instr.vabsExt x0 z)) (XA.ofWords_w2 x1))
theorem Fields.vneg : ∀ x0 x1, Fields.Statement (.vneg x0 x1) := fun x0 x1 => Fields.of_raw rfl (congrArg (fun z => some (Instr.vneg x0 z)) (BU.ofHi_hi x1))
theorem Fields.vnegExt : ∀ x0 x1, Fields.Statement (.vnegExt x0 x1) := fun x0 x1 => Fields.of_raw rfl (congrArg (fun z => some (Instr.vnegExt x0 z)) (XA.ofWords_w2 x1))
theorem Fields.vand : ∀ x0 x1, Fields.Statement (.vand x0 x1) := fun x0 x1 => Fields.of_raw rfl (congrArg (fun z => some (Instr.vand x0 z)) (B3.ofHi_hi x1))
theorem Fields.vandExt : ∀ x0 x1, Fields.Statement (.vandExt x0 x1) := fun x0 x1 => Fields.of_raw rfl (congrArg (fun z => some (Instr.vandExt x0 z)) (XA.ofWords_w2 x1))
theorem Fields.vor : ∀ x0 x1, Fields.Statement (.vor x0 x1) := fun x0 x1 => Fields.of_raw rfl (congrArg (fun z => some (Instr.vor x0 z)) (B3.ofHi_hi x1))
theorem Fields.vorExt : ∀ x0 x1, Fields.Statement (.vorExt x0 x1) := fun x0 x1 => Fields.of_raw rfl (congrArg (fun z => some (Instr.vorExt x0 z)) (XA.ofWords_w2 x1))
theorem Fields.vxor : ∀ x0 x1, Fields.Statement (.vxor x0 x1) := fun x0 x1 => Fields.of_raw rfl (congrArg (fun z => some (Instr.vxor x0 z)) (B3.ofHi_hi x1))
theorem Fields.vxorExt : ∀ x0 x1, Fields.Statement (.vxorExt x0 x1) := fun x0 x1 => Fields.of_raw rfl (congrArg (fun z => some (Instr.vxorExt x0 z)) (XA.ofWords_w2 x1))
theorem Fields.vshl : ∀ x0 x1, Fields.Statement (.vshl x0 x1) := fun x0 x1 => Fields.of_raw rfl (congrArg (fun z => some (Instr.vshl x0 z)) (B3.ofHi_hi x1))
theorem Fields.vshlExt : ∀ x0 x1, Fields.Statement (.vshlExt x0 x1) := fun x0 x1 => Fields.of_raw rfl (congrArg (fun z => some (Instr.vshlExt x0 z)) (XA.ofWords_w2 x1))
theorem Fields.vshr : ∀ x0 x1, Fields.Statement (.vshr x0 x1) := fun x0 x1 => Fields.of_raw rfl (congrArg (fun z => some (Instr.vshr x0 z)) (B3.ofHi_hi x1))
theorem Fields.vshrExt : ∀ x0 x1, Fields.Statement (.vshrExt x0 x1) := fun x0 x1 => Fields.of_raw rfl (congrArg (fun z => some (Instr.vshrExt x0 z)) (XA.ofWords_w2 x1))
theorem Fields.vsar : ∀ x0 x1, Fields.Statement (.vsar x0 x1) := fun x0 x1 => Fields.of_raw rfl (congrArg (fun z => some (Instr.vsar x0 z)) (B3.ofHi_hi x1))
theorem Fields.vsarExt : ∀ x0 x1, Fields.Statement (.vsarExt x0 x1) := fun x0 x1 => Fields.of_raw rfl (congrArg (fun z => some (Instr.vsarExt x0 z)) (XA.ofWords_w2 x1))
theorem Fields.vsra : ∀ x0 x1, Fields.Statement (.vsra x0 x1) := fun x0 x1 => Fields.of_raw rfl (congrArg (fun z => some (Instr.vsra x0 z)) (B3.ofHi_hi x1))
theorem Fields.vsraExt : ∀ x0 x1, Fields.Statement (.vsraExt x0 x1) := fun x0 x1 => Fields.of_raw rfl (congrArg (fun z => some (Instr.vsraExt x0 z)) (XA.ofWords_w2 x1))
theorem Fields.vsat : ∀ x0 x1, Fields.Statement (.vsat x0 x1) := fun x0 x1 => Fields.of_raw rfl (congrArg (fun z => some (Instr.vsat x0 z)) (XA.ofWords_w2 x1))
theorem Fields.vclamp : ∀ x0 x1, Fields.Statement (.vclamp x0 x1) := fun x0 x1 => Fields.of_raw rfl (congrArg (fun z => some (Instr.vclamp x0 z)) (XA.ofWords_w2 x1))
theorem Fields.vsext : ∀ x0 x1, Fields.Statement (.vsext x0 x1) := fun x0 x1 => Fields.of_raw rfl (congrArg (fun z => some (Instr.vsext x0 z)) (XA.ofWords_w2 x1))
theorem Fields.vzext : ∀ x0 x1, Fields.Statement (.vzext x0 x1) := fun x0 x1 => Fields.of_raw rfl (congrArg (fun z => some (Instr.vzext x0 z)) (XA.ofWords_w2 x1))
theorem Fields.vcmp : ∀ x0 x1, Fields.Statement (.vcmp x0 x1) := fun x0 x1 => Fields.of_raw rfl (congrArg (fun z => some (Instr.vcmp x0 z)) (XA.ofWords_w2 x1))
theorem Fields.vsel : ∀ x0 x1, Fields.Statement (.vsel x0 x1) := fun x0 x1 => Fields.of_raw rfl (congrArg (fun z => some (Instr.vsel x0 z)) (XA.ofWords_w2 x1))
theorem Fields.vmov : ∀ x0 x1, Fields.Statement (.vmov x0 x1) := fun x0 x1 => Fields.of_raw rfl (congrArg (fun z => some (Instr.vmov x0 z)) (BU.ofHi_hi x1))
theorem Fields.vmovExt : ∀ x0 x1, Fields.Statement (.vmovExt x0 x1) := fun x0 x1 => Fields.of_raw rfl (congrArg (fun z => some (Instr.vmovExt x0 z)) (XA.ofWords_w2 x1))
theorem Fields.vbcast : ∀ x0 x1, Fields.Statement (.vbcast x0 x1) := fun x0 x1 => Fields.of_raw rfl (congrArg (fun z => some (Instr.vbcast x0 z)) (XA.ofWords_w2 x1))
theorem Fields.vext : ∀ x0 x1, Fields.Statement (.vext x0 x1) := fun x0 x1 => Fields.of_raw rfl (congrArg (fun z => some (Instr.vext x0 z)) (XA.ofWords_w2 x1))
theorem Fields.vperm : ∀ x0 x1, Fields.Statement (.vperm x0 x1) := fun x0 x1 => Fields.of_raw rfl (congrArg (fun z => some (Instr.vperm x0 z)) (B3.ofHi_hi x1))
theorem Fields.vpermExt : ∀ x0 x1, Fields.Statement (.vpermExt x0 x1) := fun x0 x1 => Fields.of_raw rfl (congrArg (fun z => some (Instr.vpermExt x0 z)) (XA.ofWords_w2 x1))
theorem Fields.vdot : ∀ x0 x1, Fields.Statement (.vdot x0 x1) := fun x0 x1 => Fields.of_raw rfl (congrArg (fun z => some (Instr.vdot x0 z)) (XA.ofWords_w2 x1))
theorem Fields.vred : ∀ x0 x1, Fields.Statement (.vred x0 x1) := fun x0 x1 => Fields.of_raw rfl (congrArg (fun z => some (Instr.vred x0 z)) (XA.ofWords_w2 x1))
theorem Fields.vfadd : ∀ x0 x1, Fields.Statement (.vfadd x0 x1) := fun x0 x1 => Fields.of_raw rfl (congrArg (fun z => some (Instr.vfadd x0 z)) (B3.ofHi_hi x1))
theorem Fields.vfaddExt : ∀ x0 x1, Fields.Statement (.vfaddExt x0 x1) := fun x0 x1 => Fields.of_raw rfl (congrArg (fun z => some (Instr.vfaddExt x0 z)) (XA.ofWords_w2 x1))
theorem Fields.vfsub : ∀ x0 x1, Fields.Statement (.vfsub x0 x1) := fun x0 x1 => Fields.of_raw rfl (congrArg (fun z => some (Instr.vfsub x0 z)) (B3.ofHi_hi x1))
theorem Fields.vfsubExt : ∀ x0 x1, Fields.Statement (.vfsubExt x0 x1) := fun x0 x1 => Fields.of_raw rfl (congrArg (fun z => some (Instr.vfsubExt x0 z)) (XA.ofWords_w2 x1))
theorem Fields.vfmul : ∀ x0 x1, Fields.Statement (.vfmul x0 x1) := fun x0 x1 => Fields.of_raw rfl (congrArg (fun z => some (Instr.vfmul x0 z)) (B3.ofHi_hi x1))
theorem Fields.vfmulExt : ∀ x0 x1, Fields.Statement (.vfmulExt x0 x1) := fun x0 x1 => Fields.of_raw rfl (congrArg (fun z => some (Instr.vfmulExt x0 z)) (XA.ofWords_w2 x1))
theorem Fields.vfma : ∀ x0 x1, Fields.Statement (.vfma x0 x1) := fun x0 x1 => Fields.of_raw rfl (congrArg (fun z => some (Instr.vfma x0 z)) (B3.ofHi_hi x1))
theorem Fields.vfmaExt : ∀ x0 x1, Fields.Statement (.vfmaExt x0 x1) := fun x0 x1 => Fields.of_raw rfl (congrArg (fun z => some (Instr.vfmaExt x0 z)) (XA.ofWords_w2 x1))
theorem Fields.vfmin : ∀ x0 x1, Fields.Statement (.vfmin x0 x1) := fun x0 x1 => Fields.of_raw rfl (congrArg (fun z => some (Instr.vfmin x0 z)) (B3.ofHi_hi x1))
theorem Fields.vfminExt : ∀ x0 x1, Fields.Statement (.vfminExt x0 x1) := fun x0 x1 => Fields.of_raw rfl (congrArg (fun z => some (Instr.vfminExt x0 z)) (XA.ofWords_w2 x1))
theorem Fields.vfmax : ∀ x0 x1, Fields.Statement (.vfmax x0 x1) := fun x0 x1 => Fields.of_raw rfl (congrArg (fun z => some (Instr.vfmax x0 z)) (B3.ofHi_hi x1))
theorem Fields.vfmaxExt : ∀ x0 x1, Fields.Statement (.vfmaxExt x0 x1) := fun x0 x1 => Fields.of_raw rfl (congrArg (fun z => some (Instr.vfmaxExt x0 z)) (XA.ofWords_w2 x1))
theorem Fields.vfabs : ∀ x0 x1, Fields.Statement (.vfabs x0 x1) := fun x0 x1 => Fields.of_raw rfl (congrArg (fun z => some (Instr.vfabs x0 z)) (BU.ofHi_hi x1))
theorem Fields.vfabsExt : ∀ x0 x1, Fields.Statement (.vfabsExt x0 x1) := fun x0 x1 => Fields.of_raw rfl (congrArg (fun z => some (Instr.vfabsExt x0 z)) (XA.ofWords_w2 x1))
theorem Fields.vfneg : ∀ x0 x1, Fields.Statement (.vfneg x0 x1) := fun x0 x1 => Fields.of_raw rfl (congrArg (fun z => some (Instr.vfneg x0 z)) (BU.ofHi_hi x1))
theorem Fields.vfnegExt : ∀ x0 x1, Fields.Statement (.vfnegExt x0 x1) := fun x0 x1 => Fields.of_raw rfl (congrArg (fun z => some (Instr.vfnegExt x0 z)) (XA.ofWords_w2 x1))
theorem Fields.vfcmp : ∀ x0 x1, Fields.Statement (.vfcmp x0 x1) := fun x0 x1 => Fields.of_raw rfl (congrArg (fun z => some (Instr.vfcmp x0 z)) (XA.ofWords_w2 x1))
theorem Fields.vfcvt : ∀ x0 x1, Fields.Statement (.vfcvt x0 x1) := fun x0 x1 => Fields.of_raw rfl (congrArg (fun z => some (Instr.vfcvt x0 z)) (XA.ofWords_w2 x1))
theorem Fields.vfrcp : ∀ x0 x1, Fields.Statement (.vfrcp x0 x1) := fun x0 x1 => Fields.of_raw rfl (congrArg (fun z => some (Instr.vfrcp x0 z)) (BU.ofHi_hi x1))
theorem Fields.vfrcpExt : ∀ x0 x1, Fields.Statement (.vfrcpExt x0 x1) := fun x0 x1 => Fields.of_raw rfl (congrArg (fun z => some (Instr.vfrcpExt x0 z)) (XA.ofWords_w2 x1))
theorem Fields.vfrsq : ∀ x0 x1, Fields.Statement (.vfrsq x0 x1) := fun x0 x1 => Fields.of_raw rfl (congrArg (fun z => some (Instr.vfrsq x0 z)) (BU.ofHi_hi x1))
theorem Fields.vfrsqExt : ∀ x0 x1, Fields.Statement (.vfrsqExt x0 x1) := fun x0 x1 => Fields.of_raw rfl (congrArg (fun z => some (Instr.vfrsqExt x0 z)) (XA.ofWords_w2 x1))
theorem Fields.vfexp2 : ∀ x0 x1, Fields.Statement (.vfexp2 x0 x1) := fun x0 x1 => Fields.of_raw rfl (congrArg (fun z => some (Instr.vfexp2 x0 z)) (BU.ofHi_hi x1))
theorem Fields.vfexp2Ext : ∀ x0 x1, Fields.Statement (.vfexp2Ext x0 x1) := fun x0 x1 => Fields.of_raw rfl (congrArg (fun z => some (Instr.vfexp2Ext x0 z)) (XA.ofWords_w2 x1))
theorem Fields.vflog2 : ∀ x0 x1, Fields.Statement (.vflog2 x0 x1) := fun x0 x1 => Fields.of_raw rfl (congrArg (fun z => some (Instr.vflog2 x0 z)) (BU.ofHi_hi x1))
theorem Fields.vflog2Ext : ∀ x0 x1, Fields.Statement (.vflog2Ext x0 x1) := fun x0 x1 => Fields.of_raw rfl (congrArg (fun z => some (Instr.vflog2Ext x0 z)) (XA.ofWords_w2 x1))
theorem Fields.vfclass : ∀ x0 x1, Fields.Statement (.vfclass x0 x1) := fun x0 x1 => Fields.of_raw rfl (congrArg (fun z => some (Instr.vfclass x0 z)) (XA.ofWords_w2 x1))
theorem Fields.vqcb : ∀ x0 x1, Fields.Statement (.vqcb x0 x1) := fun x0 x1 => Fields.of_raw rfl (congrArg (fun z => some (Instr.vqcb x0 z)) (XA.ofWords_w2 x1))
theorem Fields.vbscale : ∀ x0 x1, Fields.Statement (.vbscale x0 x1) := fun x0 x1 => Fields.of_raw rfl (congrArg (fun z => some (Instr.vbscale x0 z)) (XA.ofWords_w2 x1))
theorem Fields.vfred : ∀ x0 x1, Fields.Statement (.vfred x0 x1) := fun x0 x1 => Fields.of_raw rfl (congrArg (fun z => some (Instr.vfred x0 z)) (XA.ofWords_w2 x1))
theorem Fields.mzero : ∀ x0 x1, Fields.Statement (.mzero x0 x1) := fun x0 x1 => Fields.of_raw rfl (congrArg (fun z => some (Instr.mzero x0 z)) (XT.ofWords_w2 x1))
theorem Fields.mma : ∀ x0 x1, Fields.Statement (.mma x0 x1) := fun x0 x1 => Fields.of_raw rfl (congrArg (fun z => some (Instr.mma x0 z)) (XT.ofWords_w2 x1))
theorem Fields.mtld : ∀ x0 x1, Fields.Statement (.mtld x0 x1) := fun x0 x1 => Fields.of_raw rfl (congrArg (fun z => some (Instr.mtld x0 z)) (XT.ofWords_w2 x1))
theorem Fields.mst : ∀ x0 x1, Fields.Statement (.mst x0 x1) := fun x0 x1 => Fields.of_raw rfl (congrArg (fun z => some (Instr.mst x0 z)) (XT.ofWords_w2 x1))
theorem Fields.mmask : ∀ x0 x1, Fields.Statement (.mmask x0 x1) := fun x0 x1 => Fields.of_raw rfl (congrArg (fun z => some (Instr.mmask x0 z)) (XT.ofWords_w2 x1))
theorem Fields.mrd : ∀ x0 x1, Fields.Statement (.mrd x0 x1) := fun x0 x1 => Fields.of_raw rfl (congrArg (fun z => some (Instr.mrd x0 z)) (XT.ofWords_w2 x1))
theorem Fields.mwr : ∀ x0 x1, Fields.Statement (.mwr x0 x1) := fun x0 x1 => Fields.of_raw rfl (congrArg (fun z => some (Instr.mwr x0 z)) (XT.ofWords_w2 x1))
theorem Fields.cp : ∀ x0 x1, Fields.Statement (.cp x0 x1) := fun x0 x1 => Fields.of_raw rfl (congrArg (fun z => some (Instr.cp x0 z)) (XT.ofWords_w2 x1))
theorem Fields.cpm : ∀ x0 x1, Fields.Statement (.cpm x0 x1) := fun x0 x1 => Fields.of_raw rfl (congrArg (fun z => some (Instr.cpm x0 z)) (XT.ofWords_w2 x1))
theorem Fields.mcb : ∀ x0 x1, Fields.Statement (.mcb x0 x1) := fun x0 x1 => Fields.of_raw rfl (congrArg (fun z => some (Instr.mcb x0 z)) (XT.ofWords_w2 x1))
theorem Fields.mstat : ∀ x0 x1, Fields.Statement (.mstat x0 x1) := fun x0 x1 => Fields.of_raw rfl (congrArg (fun z => some (Instr.mstat x0 z)) (XT.ofWords_w2 x1))
theorem Fields.msave : ∀ x0 x1, Fields.Statement (.msave x0 x1) := fun x0 x1 => Fields.of_raw rfl (congrArg (fun z => some (Instr.msave x0 z)) (XT.ofWords_w2 x1))
theorem Fields.mrest : ∀ x0 x1, Fields.Statement (.mrest x0 x1) := fun x0 x1 => Fields.of_raw rfl (congrArg (fun z => some (Instr.mrest x0 z)) (XT.ofWords_w2 x1))
theorem Fields.rdsys : ∀ x0 x1, Fields.Statement (.rdsys x0 x1) := fun x0 x1 => Fields.of_raw rfl (congrArg (fun z => some (Instr.rdsys x0 z)) (XA.ofWords_w2 x1))
theorem Fields.wrsys : ∀ x0 x1, Fields.Statement (.wrsys x0 x1) := fun x0 x1 => Fields.of_raw rfl (congrArg (fun z => some (Instr.wrsys x0 z)) (XA.ofWords_w2 x1))
theorem Fields.freeze : ∀ x0 x1, Fields.Statement (.freeze x0 x1) := fun x0 x1 => Fields.of_raw rfl (congrArg (fun z => some (Instr.freeze x0 z)) (XA.ofWords_w2 x1))
theorem Fields.thaw : ∀ x0 x1, Fields.Statement (.thaw x0 x1) := fun x0 x1 => Fields.of_raw rfl (congrArg (fun z => some (Instr.thaw x0 z)) (XA.ofWords_w2 x1))
theorem Fields.trap : ∀ x0 x1, Fields.Statement (.trap x0 x1) := fun x0 x1 => Fields.of_raw rfl (congrArg (fun z => some (Instr.trap x0 z)) (XA.ofWords_w2 x1))
theorem Fields.migrate : ∀ x0 x1, Fields.Statement (.migrate x0 x1) := fun x0 x1 => Fields.of_raw rfl (congrArg (fun z => some (Instr.migrate x0 z)) (XA.ofWords_w2 x1))
theorem Fields.seal : ∀ x0 x1, Fields.Statement (.seal x0 x1) := fun x0 x1 => Fields.of_raw rfl (congrArg (fun z => some (Instr.seal x0 z)) (XA.ofWords_w2 x1))
theorem Fields.rdctr : ∀ x0 x1, Fields.Statement (.rdctr x0 x1) := fun x0 x1 => Fields.of_raw rfl (congrArg (fun z => some (Instr.rdctr x0 z)) (XA.ofWords_w2 x1))
theorem Fields.wrctr : ∀ x0 x1, Fields.Statement (.wrctr x0 x1) := fun x0 x1 => Fields.of_raw rfl (congrArg (fun z => some (Instr.wrctr x0 z)) (XA.ofWords_w2 x1))
theorem Fields.ctrcfg : ∀ x0 x1, Fields.Statement (.ctrcfg x0 x1) := fun x0 x1 => Fields.of_raw rfl (congrArg (fun z => some (Instr.ctrcfg x0 z)) (XA.ofWords_w2 x1))
theorem Fields.wpset : ∀ x0 x1, Fields.Statement (.wpset x0 x1) := fun x0 x1 => Fields.of_raw rfl (congrArg (fun z => some (Instr.wpset x0 z)) (XA.ofWords_w2 x1))
theorem Fields.wpclr : ∀ x0 x1, Fields.Statement (.wpclr x0 x1) := fun x0 x1 => Fields.of_raw rfl (congrArg (fun z => some (Instr.wpclr x0 z)) (XA.ofWords_w2 x1))
theorem Fields.sigctl : ∀ x0 x1, Fields.Statement (.sigctl x0 x1) := fun x0 x1 => Fields.of_raw rfl (congrArg (fun z => some (Instr.sigctl x0 z)) (XA.ofWords_w2 x1))
theorem Fields.pwrite : ∀ x0 x1, Fields.Statement (.pwrite x0 x1) := fun x0 x1 => Fields.of_raw rfl (congrArg (fun z => some (Instr.pwrite x0 z)) (XA.ofWords_w2 x1))
theorem Fields.bfmtWrite : ∀ x0 x1, Fields.Statement (.bfmtWrite x0 x1) := fun _ _ => Fields.of_none rfl
theorem Fields.bankRewrite : ∀ x0 x1, Fields.Statement (.bankRewrite x0 x1) := fun _ _ => Fields.of_none rfl
theorem Fields.pgans : ∀ x0, Fields.Statement (.pgans x0) := fun _ => Fields.of_none rfl
theorem Fields.pginv : ∀ x0, Fields.Statement (.pginv x0) := fun _ => Fields.of_none rfl
theorem Fields.frmctlAttributes : ∀ x0, Fields.Statement (.frmctlAttributes x0) := fun _ => Fields.of_none rfl
theorem Fields.frmctlWithdraw : ∀ x0, Fields.Statement (.frmctlWithdraw x0) := fun _ => Fields.of_none rfl
theorem Fields.frmctlFill : ∀ x0, Fields.Statement (.frmctlFill x0) := fun _ => Fields.of_none rfl
theorem Fields.frmctlRestore : ∀ x0, Fields.Statement (.frmctlRestore x0) := fun _ => Fields.of_none rfl
theorem Fields.sysregWrite : ∀ x0 x1, Fields.Statement (.sysregWrite x0 x1) := fun _ _ => Fields.of_none rfl
theorem Fields.loadDataArrival : ∀ x0, Fields.Statement (.loadDataArrival x0) := fun _ => Fields.of_none rfl
theorem Fields.storeAck : ∀ x0, Fields.Statement (.storeAck x0) := fun _ => Fields.of_none rfl
theorem Fields.drainEnd : ∀ x0, Fields.Statement (.drainEnd x0) := fun _ => Fields.of_none rfl
theorem Fields.doneRetire : ∀ x0, Fields.Statement (.doneRetire x0) := fun _ => Fields.of_none rfl
theorem Fields.commitComplete : ∀ x0, Fields.Statement (.commitComplete x0) := fun _ => Fields.of_none rfl
theorem Fields.engineCompletion : ∀ x0, Fields.Statement (.engineCompletion x0) := fun _ => Fields.of_none rfl
theorem Fields.weevilReply : ∀ x0, Fields.Statement (.weevilReply x0) := fun _ => Fields.of_none rfl
theorem Fields.localTimeAdvance : ∀ x0 x1 x2, Fields.Statement (.localTimeAdvance x0 x1 x2) := fun _ _ _ => Fields.of_none rfl
theorem Fields.eventArrival : ∀ x0, Fields.Statement (.eventArrival x0) := fun _ => Fields.of_none rfl
theorem Fields.tableWalkDone : ∀ x0, Fields.Statement (.tableWalkDone x0) := fun _ => Fields.of_none rfl
theorem Fields.pagerAnswerArrival : ∀ x0, Fields.Statement (.pagerAnswerArrival x0) := fun _ => Fields.of_none rfl
theorem Fields.pinReply : ∀ x0, Fields.Statement (.pinReply x0) := fun _ => Fields.of_none rfl
theorem Fields.dispatch : ∀ x0, Fields.Statement (.dispatch x0) := fun _ => Fields.of_none rfl
theorem Fields.priorityAging : ∀ x0, Fields.Statement (.priorityAging x0) := fun _ => Fields.of_none rfl
theorem Fields.lateTranslationFill : ∀ x0, Fields.Statement (.lateTranslationFill x0) := fun _ => Fields.of_none rfl
theorem Fields.buddyTimeout : ∀ x0, Fields.Statement (.buddyTimeout x0) := fun _ => Fields.of_none rfl
theorem Fields.forwardExpiry : ∀ x0 x1, Fields.Statement (.forwardExpiry x0 x1) := fun _ _ => Fields.of_none rfl
theorem Fields.migrationTakeover : ∀ x0, Fields.Statement (.migrationTakeover x0) := fun _ => Fields.of_none rfl
theorem Fields.disarmRelease : ∀ x0, Fields.Statement (.disarmRelease x0) := fun _ => Fields.of_none rfl
theorem Fields.coreRestart : ∀ x0, Fields.Statement (.coreRestart x0) := fun _ => Fields.of_none rfl
theorem Fields.replayFeedInput : ∀ x0, Fields.Statement (.replayFeedInput x0) := fun _ => Fields.of_none rfl
theorem Fields.gateLoadRequest : ∀ x0, Fields.Statement (.gateLoadRequest x0) := fun _ => Fields.of_none rfl
theorem Fields.gateStoreRequest : ∀ x0, Fields.Statement (.gateStoreRequest x0) := fun _ => Fields.of_none rfl
theorem Fields.gateAtomicRequest : ∀ x0, Fields.Statement (.gateAtomicRequest x0) := fun _ => Fields.of_none rfl
theorem Fields.weevilFamo : ∀ x0, Fields.Statement (.weevilFamo x0) := fun _ => Fields.of_none rfl
theorem Fields.weevilMcas : ∀ x0, Fields.Statement (.weevilMcas x0) := fun _ => Fields.of_none rfl
theorem Fields.weevilLenq : ∀ x0, Fields.Statement (.weevilLenq x0) := fun _ => Fields.of_none rfl
theorem Fields.weevilPchase : ∀ x0, Fields.Statement (.weevilPchase x0) := fun _ => Fields.of_none rfl
theorem Fields.pchaseSlotTimeout : ∀ x0, Fields.Statement (.pchaseSlotTimeout x0) := fun _ => Fields.of_none rfl
theorem Fields.pinMessage : ∀ x0, Fields.Statement (.pinMessage x0) := fun _ => Fields.of_none rfl
theorem Fields.creditReturn : ∀ x0, Fields.Statement (.creditReturn x0) := fun _ => Fields.of_none rfl
theorem Fields.spareRequest : ∀ x0, Fields.Statement (.spareRequest x0) := fun _ => Fields.of_none rfl
theorem Fields.spareGrant : ∀ x0, Fields.Statement (.spareGrant x0) := fun _ => Fields.of_none rfl
theorem Fields.rewriteNotice : ∀ x0, Fields.Statement (.rewriteNotice x0) := fun _ => Fields.of_none rfl
theorem Fields.rewriteAck : ∀ x0, Fields.Statement (.rewriteAck x0) := fun _ => Fields.of_none rfl
theorem Fields.heldReadTimeout : ∀ x0, Fields.Statement (.heldReadTimeout x0) := fun _ => Fields.of_none rfl
theorem Fields.replyTimeout : ∀ x0, Fields.Statement (.replyTimeout x0) := fun _ => Fields.of_none rfl
theorem Fields.migrationEntryWrite : ∀ x0 x1 x2 x3, Fields.Statement (.migrationEntryWrite x0 x1 x2 x3) := fun _ _ _ _ => Fields.of_none rfl
theorem Fields.migrationLineCopy : ∀ x0 x1, Fields.Statement (.migrationLineCopy x0 x1) := fun _ _ => Fields.of_none rfl
theorem Fields.sideTableWrite : ∀ x0 x1, Fields.Statement (.sideTableWrite x0 x1) := fun _ _ => Fields.of_none rfl
theorem Fields.flitReceive : ∀ x0 x1, Fields.Statement (.flitReceive x0 x1) := fun _ _ => Fields.of_none rfl
theorem Fields.nakReceived : ∀ x0 x1, Fields.Statement (.nakReceived x0 x1) := fun _ _ => Fields.of_none rfl
theorem Fields.retrainDone : ∀ x0, Fields.Statement (.retrainDone x0) := fun _ => Fields.of_none rfl
theorem Fields.keySwitchMarker : ∀ x0, Fields.Statement (.keySwitchMarker x0) := fun _ => Fields.of_none rfl
theorem Fields.markerReceived : ∀ x0 x1, Fields.Statement (.markerReceived x0 x1) := fun _ _ => Fields.of_none rfl
theorem Fields.laneFailure : ∀ x0 x1, Fields.Statement (.laneFailure x0 x1) := fun _ _ => Fields.of_none rfl
theorem Fields.switchFlitRoute : ∀ x0 x1, Fields.Statement (.switchFlitRoute x0 x1) := fun _ _ => Fields.of_none rfl
theorem Fields.combinedReplySplit : ∀ x0 x1 x2 x3, Fields.Statement (.combinedReplySplit x0 x1 x2 x3) := fun _ _ _ _ => Fields.of_none rfl
theorem Fields.heartbeatSend : ∀ x0, Fields.Statement (.heartbeatSend x0) := fun _ => Fields.of_none rfl
theorem Fields.heartbeatReceive : ∀ x0 x1 x2, Fields.Statement (.heartbeatReceive x0 x1 x2) := fun _ _ _ => Fields.of_none rfl
theorem Fields.heartbeatTimeout : ∀ x0 x1 x2, Fields.Statement (.heartbeatTimeout x0 x1 x2) := fun _ _ _ => Fields.of_none rfl
theorem Fields.memberNotice : ∀ x0 x1 x2, Fields.Statement (.memberNotice x0 x1 x2) := fun _ _ _ => Fields.of_none rfl
theorem Fields.timingExchange : ∀ x0 x1 x2, Fields.Statement (.timingExchange x0 x1 x2) := fun _ _ _ => Fields.of_none rfl
theorem Fields.timingRequest : ∀ x0, Fields.Statement (.timingRequest x0) := fun _ => Fields.of_none rfl
theorem Fields.timingReply : ∀ x0 x1 x2, Fields.Statement (.timingReply x0 x1 x2) := fun _ _ _ => Fields.of_none rfl
theorem Fields.cxlMemRead : ∀ x0 x1 x2, Fields.Statement (.cxlMemRead x0 x1 x2) := fun _ _ _ => Fields.of_none rfl
theorem Fields.cxlMemWrite : ∀ x0 x1 x2, Fields.Statement (.cxlMemWrite x0 x1 x2) := fun _ _ _ => Fields.of_none rfl
theorem Fields.mailboxGo : ∀ x0, Fields.Statement (.mailboxGo x0) := fun _ => Fields.of_none rfl
theorem Fields.hsemAcquire : ∀ x0 x1, Fields.Statement (.hsemAcquire x0 x1) := fun _ _ => Fields.of_none rfl
theorem Fields.hsemRelease : ∀ x0, Fields.Statement (.hsemRelease x0) := fun _ => Fields.of_none rfl
theorem Fields.hostLinkDown : ∀ x0, Fields.Statement (.hostLinkDown x0) := fun _ => Fields.of_none rfl
theorem Fields.armctlArm : ∀ x0 x1, Fields.Statement (.armctlArm x0 x1) := fun _ _ => Fields.of_none rfl
theorem Fields.armctlDisarm : ∀ x0 x1, Fields.Statement (.armctlDisarm x0 x1) := fun _ _ => Fields.of_none rfl
theorem Fields.attestRequest : ∀ x0, Fields.Statement (.attestRequest x0) := fun _ => Fields.of_none rfl
theorem Fields.attestComplete : ∀ x0, Fields.Statement (.attestComplete x0) := fun _ => Fields.of_none rfl
theorem Fields.bhpartWrite : ∀ x0 x1 x2, Fields.Statement (.bhpartWrite x0 x1 x2) := fun _ _ _ => Fields.of_none rfl
theorem Fields.bulkheadReset : ∀ x0 x1, Fields.Statement (.bulkheadReset x0 x1) := fun _ _ => Fields.of_none rfl
theorem Fields.bulkheadResetEnd : ∀ x0, Fields.Statement (.bulkheadResetEnd x0) := fun _ => Fields.of_none rfl
theorem Fields.pcfgWrite : ∀ x0 x1 x2, Fields.Statement (.pcfgWrite x0 x1 x2) := fun _ _ _ => Fields.of_none rfl
theorem Fields.pwrReqOn : ∀ x0 x1, Fields.Statement (.pwrReqOn x0 x1) := fun _ _ => Fields.of_none rfl
theorem Fields.pwrReqIdle : ∀ x0 x1, Fields.Statement (.pwrReqIdle x0 x1) := fun _ _ => Fields.of_none rfl
theorem Fields.pwrReqOff : ∀ x0 x1, Fields.Statement (.pwrReqOff x0 x1) := fun _ _ => Fields.of_none rfl
theorem Fields.windowTableWrite : ∀ x0 x1 x2 x3, Fields.Statement (.windowTableWrite x0 x1 x2 x3) := fun _ _ _ _ => Fields.of_none rfl
theorem Fields.trwpWrite : ∀ x0 x1 x2, Fields.Statement (.trwpWrite x0 x1 x2) := fun _ _ _ => Fields.of_none rfl
theorem Fields.stopRequest : ∀ x0 x1 x2, Fields.Statement (.stopRequest x0 x1 x2) := fun _ _ _ => Fields.of_none rfl
theorem Fields.stopRelease : ∀ x0 x1 x2, Fields.Statement (.stopRelease x0 x1 x2) := fun _ _ _ => Fields.of_none rfl
theorem Fields.deadMemberClear : ∀ x0 x1 x2, Fields.Statement (.deadMemberClear x0 x1 x2) := fun _ _ _ => Fields.of_none rfl
theorem Fields.mgmtRegisterWrite : ∀ x0 x1 x2, Fields.Statement (.mgmtRegisterWrite x0 x1 x2) := fun _ _ _ => Fields.of_none rfl
theorem Fields.thermalThrottle : ∀ x0 x1, Fields.Statement (.thermalThrottle x0 x1) := fun _ _ => Fields.of_none rfl
theorem Fields.thermalTrip : ∀ x0 x1, Fields.Statement (.thermalTrip x0 x1) := fun _ _ => Fields.of_none rfl
theorem Fields.powerCapExceeded : ∀ x0 x1, Fields.Statement (.powerCapExceeded x0 x1) := fun _ _ => Fields.of_none rfl
theorem Fields.modulePowerOn : ∀ x0 x1 x2, Fields.Statement (.modulePowerOn x0 x1 x2) := fun _ _ _ => Fields.of_none rfl
theorem Fields.bootLeadTimeout : ∀ x0, Fields.Statement (.bootLeadTimeout x0) := fun _ => Fields.of_none rfl
theorem Fields.bootDone : ∀ x0, Fields.Statement (.bootDone x0) := fun _ => Fields.of_none rfl
theorem Fields.moduleReset : ∀ x0, Fields.Statement (.moduleReset x0) := fun _ => Fields.of_none rfl
theorem Fields.referenceLockLoss : ∀ x0 x1, Fields.Statement (.referenceLockLoss x0 x1) := fun _ _ => Fields.of_none rfl
theorem Fields.referenceLockReturn : ∀ x0 x1, Fields.Statement (.referenceLockReturn x0 x1) := fun _ _ => Fields.of_none rfl
theorem Fields.switchFailure : ∀ x0, Fields.Statement (.switchFailure x0) := fun _ => Fields.of_none rfl
theorem Fields.retiredSlotKeyLoad : ∀ x0, Fields.Statement (.retiredSlotKeyLoad x0) := fun _ => Fields.of_none rfl
theorem Fields.hostLinkUp : ∀ x0, Fields.Statement (.hostLinkUp x0) := fun _ => Fields.of_none rfl
theorem Fields.powerWithinCap : ∀ x0 x1, Fields.Statement (.powerWithinCap x0 x1) := fun _ _ => Fields.of_none rfl
theorem Fields.memoryBitError : ∀ x0 x1 x2, Fields.Statement (.memoryBitError x0 x1 x2) := fun _ _ _ => Fields.of_none rfl

end Sys2Proof.Laws
end

