-- ==== Sys2Proof/Tests/Slice0.lean ====
section
/-! SUPPORT. Slice0.lean: tests. For every constructor with a word the decoding of a word written out from the spec; an ill-formed
term for each decode check; the spec's worked examples; and for every statement with hypotheses a state and operands that meet them. -/

/-! ### Small states -/

namespace Sys2Proof.Tests

set_option Elab.async false

open Sys2Proof.Machine Sys2Proof.Claims

/-- The hardwired-true guard, and the never slot. -/
abbrev G7 : Guard := ⟨false, 7⟩
abbrev NEVER : Guard := ⟨true, 7⟩
/-- An operand field that is zero, and a range of the scalar and of the vector file. -/
abbrev Z : Slot := ⟨0, false, 0, 0⟩
abbrev S (w : BitVec 4) (start : BitVec 9) : Slot := ⟨0, false, w, start⟩
abbrev V (w : BitVec 4) (start : BitVec 9) : Slot := ⟨1, false, w, start⟩

/-- Operands x3, x4, x5 and c = x6 under uint; the same in the vector file; memory and matrix fields. -/
def xa : XA := { var := 0, d := S 15 48, a := S 15 64, b := S 15 80, ty := 1, mod := 0, c := S 15 96, lit := none }
def xv : XA := { var := 0, d := V 3 0, a := V 3 8, b := V 3 16, ty := 1, mod := 0, c := V 3 24, lit := none }
def xm : XM := { var := 0, d := S 7 48, a := S 15 64, b := S 7 80, ty := 1, off := 8, z := 0, op := 0, scope := 0, ord := 0, ctr := 3,
                 lit := none }
def xt : XT := { var := 0, d := ⟨3, false, 0, 1⟩, a := S 15 64, b := S 15 80, mcB := false, mcA := false, masks := false, zf := true,
                 k := 64, ctl := 0, tr := false, ctr := 2, bty := 0, aty := 0, lit := none }

/-- A reactor of core 0 of bulkhead 0: one region at 0x1000, its structures in bank 11, and one connection to itself. -/
def re0 : Reactor :=
  { core := 0, part := 0, st := .run, runTs := some 0, started := true, regions := [(0, 0x1000, 0x1000)], ctl := 0x58000, ring := 0x58800,
    depth := 8, cq := 0x59000, eq := 0x59800, spares := 4, entry := 0x3000000000000000
    conns := [{ bits := 1, target := 0, tport := 0, f := 2 }] }
/-- Its activation, restartable, with a code page at HBM offset 0. -/
def act0 : Act :=
  { reactor := 0, q := { tagt := 5, tagm := 1 }, entry := 0x3000000000000000,
    code := [{ va := 0x3000000000000000, size := 65536, pa := 0 }] }
/-- Registers whose x4 is the scratchpad address `a` and whose x5 is `b`. -/
def regsOf (a b : Nat) : Regs := (({} : Regs).put ⟨64, 16⟩ a).put ⟨80, 16⟩ b
def th0 (a b : Nat) (act : Act) : Thread := { mode := .run, act := some act, pc := 0x3000000000000100, r := regsOf a b }
/-- Thread set 0 runs it. -/
def runs (a b : Nat) (act : Act := act0) (r : Reactor := re0) : State :=
  { State.reset with thr := [(0, th0 a b act)], reac := [(0, r)] }
/-- The same past its commit point, and privileged. -/
def past (a b : Nat) : State := runs a b { act0 with restartable := false }
def priv (a b : Nat) : State := runs a b { act0 with restartable := false, priv := true }
/-- Local scratchpad address 0x1000 + o. -/
abbrev L (o : Nat) : Nat := 0x1000000000001000 + o

/-- The next state of a step. -/
def nx (o : Out) : State := nextOf o State.reset

/-- A proposition about a name that has a definite value. -/
theorem ne_frame {p : Option Place} {q : Place} (h : p = some q) (hq : ∀ c u o, q ≠ .frame c u o) :
    ∀ c u o, p ≠ some (.frame c u o) := by
  intro c u o e
  exact hq c u o (Option.some.inj (h ▸ e))

/-! ### Witnesses: states and operands that meet the hypotheses of the statements, clause by clause -/

/-- ScalarArithmetic, LogicAndShifts, BitsAndFields, MovesAndAddresses, and a form whose guard is not g7. -/
theorem test_wit_scalar : (runs 1 2).me.r.guardTrue G7 = true ∧ (runs 1 2).me.r.guardTrue ⟨true, 0⟩ = true := by decide +kernel

/-- ComparesAndGuards: gmov in both directions. -/
theorem test_wit_guards : (runs 1 2).me.r.guardTrue G7 = true ∧ { xa with d := ⟨2, false, 0, 0⟩ }.d.file = 2 ∧ xa.d.file ≠ 2 := by decide +kernel

/-- MovesBetweenStores: smov both ways, a spill and a fill that fit and one past the end of the store. -/
theorem test_wit_stores : (runs 1 2).me.r.guardTrue G7 = true ∧ xv.d.file = 1 ∧ xa.d.file ≠ 1 ∧ readZ xa.b xa.lit (runs 1 4080) + 16 ≤ 4096 ∧
    readZ xv.b (some 4080) (runs 1 2) + 8 * 4 ≤ 4096 + 32 ∧ readZ xa.b xa.lit (runs 1 4080) = 4080 ∧
    4096 < readZ xa.b xa.lit (runs 1 4081) + xa.a.width ∧ 4096 < readZ xa.b xa.lit (runs 1 4081) + xa.d.width ∧
    (runs 1 4081).loading (runs 1 4081).cur = false ∧ (runs 1 4081).owed 0 0 = false := by decide +kernel

/-- SlicesReadBack: the last range of each file. -/
theorem test_wit_slices : (⟨496, 16⟩ : Rng).start + 16 ≤ 512 ∧ (⟨240, 16⟩ : Rng).start + 16 ≤ 256 ∧ (0 : Nat) + 16 ≤ 16 := by decide +kernel

/-- ControlTransfers: good targets at both ends of the windows, and two that trap. -/
theorem test_wit_targets : goodTarget 0x3000000000000000 ∧ goodTarget 0xDFFFFFFFFFFFFFFC ∧ ¬ goodTarget 0x3000000000000002 ∧
    ¬ goodTarget 0xE000000000000000 ∧ (runs 1 2).loading 0 = false ∧ (runs 1 2).owed 0 0 = false := by
  unfold goodTarget
  decide +kernel

/-- RepeatStarts: counts of 1 and 4,096, 0 with a body that is mapped, and 4,097. -/
theorem test_wit_rep : readZ xa.b xa.lit (runs 1 1) = 1 ∧ readZ xa.b xa.lit (runs 1 4096) = 4096 ∧ 4096 < readZ xa.b xa.lit (runs 1 4097) ∧
    readZ xa.b xa.lit (runs 1 0) = 0 ∧ (runs 1 0).codeSkip 0 1 0x300000000000010C = .ok 0x3000000000000110 :=
  ⟨by decide +kernel, by decide +kernel, by decide +kernel, by decide +kernel, rfl⟩

/-- DoneDrains: with a load in flight, and without. -/
def loads : State := { runs 1 2 with flight := [(0, .load 0 3 { start := 48, width := 8 } none false false {} {} none)], nextId := 1 }
theorem test_wit_done : (runs 1 2).me.act.isSome = true ∧ (runs 1 2).loading 0 = false ∧ weevilsOut (runs 1 2) 0 = false ∧ loads.loading 0 = true ∧ loads.me.act.isSome = true ∧
    allAcked (runs 1 2) 0 = true ∧ allAcked loads 0 = false := by decide +kernel
/-- DoneDrains, Synchronises: a window that holds a store to another bulkhead, and one whose stores are all to the own memory. -/
def windowed (hs : List Held) : State := { runs 1 2 { act0 with held := hs } with bh := [(0, { bhpart := 2 ^ 63 }), (1, { bhpart := 2 ^ 63 })] }
def heldAt (pa : Nat) : Held := { va := 0x3000000000000040, pa := pa, bytes := [1, 2, 3, 4] }
theorem test_wit_window : ((windowed [heldAt (2 ^ 37 + 0x10000040)]).act 0).held = [heldAt (2 ^ 37 + 0x10000040)] ∧
    bhOfPa (heldAt (2 ^ 37 + 0x10000040)).pa ≠ bhOf 0 ∧ (windowed [heldAt 0x10000040]).flight = [] ∧
    undisturbed (windowed [heldAt 0x10000040]) 0 ∧ (heldAt 0x10000040).rel = false ∧
    reach (windowed []) (farAgent (windowed []) 0 0 0 false) { va := 0x3000000000000040, pa := 0x10000040, n := 4 } .w = .ok ∧
    (∀ i, i < 4 → bhOfPa (0x10000040 + i) = bhOf 0) ∧ allAcked (windowed [heldAt 0x10000040]) 0 = true := by
  unfold undisturbed
  decide +kernel

/-- FalseGuardOnlyAdvances: the never slot of a scalar and of a vector instruction. -/
theorem test_wit_never : (Instr.iadd NEVER ⟨11, 8, 6, none⟩).wellFormed = true ∧ (Instr.vaddExt NEVER { xv with c := Z }).wellFormed = true ∧
    (∀ r, (Instr.iadd NEVER ⟨11, 8, 6, none⟩).toRaw = some r → guarded (runs 1 2).me.r r = false) ∧
    ∀ r, (Instr.vaddExt NEVER { xv with c := Z }).toRaw = some r → guarded (runs 1 2).me.r r = false := by
  refine ⟨by decide +kernel, by decide +kernel, ?_, ?_⟩ <;> (intro r h; cases h; decide +kernel)



/-- The piece of n bytes at L o, in plain scratchpad of core 0. -/
def pieceL (o n : Nat) : Piece := { va := L o, pa := 2 ^ 36 + 0x1000 + o, n := n }

/-- LoadsIssue: ld of 4 bytes of the own scratchpad, and vld of its eight lanes. -/
theorem test_wit_ld : (runs (L 0) 2).me.r.guardTrue G7 = true ∧ (runs (L 0) 2).me.c 3 < 255 ∧
    (checkAccess (runs (L 0) 2) 0 .r (effAddr (runs (L 0) 2).me.r xm) 4).toOption = some [pieceL 8 4] ∧
    soWaits (runs (L 0) 2) xm [pieceL 8 4] false = false ∧
    place 0 (effAddr (runs (L 0) 2).me.r xm) 4 = some (.sp 0 0x1008) := by decide +kernel
theorem test_wit_ld_may : mayAccess G7 xm (Machine.sizeOf xm.d.width) (runs (L 0) 2) :=
  ⟨by decide +kernel, by decide +kernel, ne_frame (q := .sp 0 0x1008) (by decide +kernel) (by intro c u o h; cases h)⟩
theorem test_wit_ld_got : isNear 0 [pieceL 8 4] = true ∧ heldPiece (runs (L 0) 2) (pieceL 8 4) = false ∧ undisturbed (runs (L 0) 2) 0 ∧
    blocked (runs (L 0) 2) 0 { ts := 0, ps := [pieceL 8 4], wide := false } = false ∧
    reach (runs (L 0) 2) ((runs (L 0) 2).agent 0 0) (pieceL 8 4) .r = .ok ∧ (∀ i, i < 4 → bhOfPa ((pieceL 8 4).pa + i) = bhOf 0) := by
  unfold undisturbed
  decide +kernel
/-- LoadsIssue, StoresAreHeldOrPerformed: the context frame of thread set 1, frozen and not, from a privileged and an unprivileged
activation, aligned and not. -/
def frameAt (m : Mode) (o : Nat) (p : Bool) : State :=
  { runs (0x2000000008001000 + o) 2 with thr := [(0, th0 (0x2000000008001000 + o) 2 { act0 with restartable := false, priv := p }),
    (1, { th0 1 2 act0 with mode := m })] }
theorem test_wit_frame_ok : mayTouchFrame G7 xm .r 4 0 1 0x508 (frameAt .frozen 0x500 true) ∧
    mayTouchFrame G7 xm .w 4 0 1 0x508 (frameAt .frozen 0x500 true) ∧ 0 * 4 + 1 ≠ (frameAt .frozen 0x500 true).cur := by
  unfold mayTouchFrame
  decide +kernel
theorem test_wit_frame_traps : place 0 (effAddr (frameAt .frozen 0x501 false).me.r xm) 4 = some (.frame 0 1 0x509) ∧
    effAddr (frameAt .frozen 0x501 false).me.r xm % 4 ≠ 0 ∧ effAddr (frameAt .frozen 0x500 false).me.r xm % 4 = 0 ∧
    ((frameAt .frozen 0x500 false).act 0).priv = false ∧ ((frameAt .run 0x500 true).act 0).priv = true ∧
    ((frameAt .run 0x500 true).th 1).mode ≠ .frozen ∧ (frameAt .run 0x500 true).loading 0 = false ∧ (frameAt .run 0x500 true).owed 0 0 = false := by
  decide +kernel
theorem test_wit_vld : (runs (L 0) 2).me.r.lanes G7 ≠ 0 ∧
    (match checkLanes (runs (L 0) 2) .r 4 (lanesOf G7 { xm with d := V 7 0, b := Z } false 4 (runs (L 0) 2)) with
      | .ok ls => decide (ls.length = 8) && !soWaits (runs (L 0) 2) xm (ls.flatMap (·.2.2)) false
      | .error _ => false) = true := by decide +kernel

/-- StoresAreHeldOrPerformed: st and vst into the region, which the window holds; st into scratch space, which it does not. -/
theorem test_wit_st_held : (runs (L 0) 2).me.act.isSome = true ∧ ((runs (L 0) 2).act 0).restartable = true ∧ (runs (L 0) 2).loading 0 = false ∧
    (checkAccess (runs (L 0) 2) 0 .w (effAddr (runs (L 0) 2).me.r xm) 4).toOption = some [pieceL 8 4] ∧
    cut [pieceL 8 4] [1, 2, 3, 4] ≠ [] ∧ (∀ e ∈ joinParts (cut [pieceL 8 4] [1, 2, 3, 4]), holds (runs (L 0) 2) 0 e.1 = true) ∧
    (∀ e ∈ cut [pieceL 8 4] [1, 2, 3, 4], e.2.length = e.1.n) ∧
    windowFits ((runs (L 0) 2).act 0) (heldOf xm 0 0 (joinParts (cut [pieceL 8 4] [1, 2, 3, 4]))) 0 = true := by decide +kernel
theorem test_wit_vst_held :
    (match checkLanes (runs (L 0) 2) .w 4 (lanesOf G7 { xm with b := V 7 0 } false 4 (runs (L 0) 2)) with
      | .ok ls =>
        let l := joinParts (ls.flatMap fun l => cut l.2.2 [1, 2, 3, 4])
        (l.all fun e => holds (runs (L 0) 2) 0 e.1) && windowFits ((runs (L 0) 2).act 0) (heldOf xm 0 0 l) 0
      | .error _ => false) = true := by decide +kernel
theorem test_wit_st_place : (checkAccess (runs (L 0x40000) 2) 0 .w (effAddr (runs (L 0x40000) 2).me.r xm) 4).toOption = some [pieceL 0x40008 4] ∧
    isSp (pieceL 0x40008 4).pa = true ∧ spCore (pieceL 0x40008 4).pa = 0 ∧ holds (runs (L 0x40000) 2) 0 (pieceL 0x40008 4) = false ∧
    effAcq 1 (xmRel xm) = false ∧ bhOfPa (pieceL 0x40008 4).pa = 0 ∧ (pieceL 0x40008 4).n = Machine.sizeOf xm.b.width ∧
    ((runs (L 0x40000) 2).bu 0).mwatch = [] ∧ ((runs (L 0x40000) 2).bu 0).migs = [] ∧ Memory.wf (runs (L 0x40000) 2).mem = true ∧
    ownerNow (runs (L 0x40000) 2) (farAgent (runs (L 0x40000) 2) 0 0 0 false) (pieceL 0x40008 4) = true ∧
    blocked (runs (L 0x40000) 2) 0 { ts := 0, ps := [pieceL 0x40008 4], store := true } = false ∧ (runs (L 0x40000) 2).flips = [] := by
  decide +kernel

/-- StoresAreHeldOrPerformed: a store past the commit point to the own HBM, to another bulkhead, and to the scratchpad of core 1. -/
def storing (pa : Nat) : State :=
  { runs 0x3000000000010000 2 { act0 with restartable := false
                                          extents := [BitVec.ofNat 128 (0x3000000000010000 * 2 ^ 64 + 65535 * 2 ^ 24 + 0xE8 * 2 ^ 16 + 1 * 512)]
                                          frags := [BitVec.ofNat 64 (pa + 1 * 64)] } with
    bh := [(0, { bhpart := 2 ^ 63 }), (1, { bhpart := 2 ^ 63 })] }
def pieceS (pa : Nat) : Piece := { va := 0x3000000000010008, pa := pa + 8, n := 4, ord := 1 }
theorem test_wit_st_committed : (checkAccess (storing (5 * 65536)) 0 .w (effAddr (storing (5 * 65536)).me.r xm) 4).toOption = some [pieceS (5 * 65536)] ∧
    isSp (pieceS (5 * 65536)).pa = false ∧ bhOfPa (pieceS (5 * 65536)).pa = bhOf 0 ∧ committedAlready (storing (5 * 65536)) ∧
    (checkAccess (storing (2 ^ 37)) 0 .w (effAddr (storing (2 ^ 37)).me.r xm) 4).toOption = some [pieceS (2 ^ 37)] ∧
    bhOfPa (pieceS (2 ^ 37)).pa ≠ bhOf 0 ∧ isSp (pieceS (spAddr 1 0x10000)).pa = true ∧ spCore (pieceS (spAddr 1 0x10000)).pa ≠ coreOf 0 := by
  unfold committedAlready
  decide +kernel
theorem test_wit_st_let : undisturbed (storing (5 * 65536)) 0 ∧ allAcked (storing (5 * 65536)) 0 = true ∧
    blocked (storing (5 * 65536)) 0 { ts := 0, ps := [pieceS (5 * 65536)], store := true } = false ∧
    reach (storing (5 * 65536)) (farAgent (storing (5 * 65536)) 0 0 0 false) (pieceS (5 * 65536)) .w = .ok ∧
    effAddr (storing (5 * 65536)).me.r xm / 2 ^ 60 = 3 := by
  unfold undisturbed
  decide +kernel

/-- LoadDataReachesRegisters: a load of thread set 0 that has its data. -/
def dataIn : State :=
  { runs 1 2 with flight := [(4, .load 0 3 { start := 48, width := 8 } none false false {} {} (some [{ lane := 0, bytes := [1, 2, 3, 4] }]))] }
theorem test_wit_data : dataIn.fl? 4 = some (.load 0 3 { start := 48, width := 8 } none false false {} {}
    (some [{ lane := 0, bytes := [1, 2, 3, 4] }])) ∧ (dataIn.act 0).held = [] ∧
    (nx (exec (.loadDataArrival 4) dataIn)).me.r.scalar.toNat / 2 ^ 192 % 2 ^ 32 = 0x04030201 := by decide +kernel
def lanesIn : State :=
  { runs 1 2 with flight := [(4, .load 0 3 { vec := true, start := 0, width := 8 } none false false {} {}
    (some ([(1, [5, 0, 0, 0]), (6, [9, 0, 0, 0])].map fun l => { lane := l.1, bytes := l.2 })))] }
theorem test_wit_lanes_in : (lanesIn.fl? 4).isSome = true ∧ (lanesIn.act 0).held = [] ∧
    readLane (nx (exec (.loadDataArrival 4) lanesIn)).me.r.vec 6 ⟨0, 8⟩ = 9 := by decide +kernel

/-- AtomicsIssue: committed, an aligned word; famo, lenq and pchase; a descriptor of mcas with one word. -/
def descr : State := { past (L 0) (L 0x100) with mem := [(2 ^ 36 + 0x1108, 7), (2 ^ 36 + 0x1128, 9)] }
theorem test_wit_atomic : committedAlready (past (L 0) 2) ∧ (past (L 0) 2).loading 0 = false ∧ effAddr (past (L 0) 2).me.r xm % 4 = 0 ∧
    (checkAccess (past (L 0) 2) 0 .a (effAddr (past (L 0) 2).me.r xm) 4).toOption = some [pieceL 8 4] ∧
    soWaits (past (L 0) 2) xm [pieceL 8 4] (xmRel xm) = false ∧ (past (L 0) 2).hasRe 0 = true ∧
    effAddr (past (L 8) 2).me.r xm % 16 = 0 ∧ 16 % 16 = 0 ∧
    (checkAccess (past (L 8) 16) 0 .a (effAddr (past (L 8) 16).me.r xm) 16).toOption = some [pieceL 16 16] ∧
    (judgeAccess (past (L 8) 16) 0 .a true (some .r) (effAddr (past (L 8) 16).me.r xm) 16).toOption = some [pieceL 16 16] := by
  unfold committedAlready
  decide +kernel
theorem test_wit_mcas : let x := { xm with b := S 15 80 }
    committedAlready descr ∧ effAddr descr.me.r x % 8 = 0 ∧ readZ x.b x.lit descr / 2 ^ 60 = 1 ∧ readZ x.b x.lit descr % 8 = 0 ∧
    readZ x.b x.lit descr % 2 ^ 60 + 72 ≤ 0x60000 ∧
    (match checkAccess descr 0 .r (readZ x.b x.lit descr) 72 with
      | .ok ds =>
        let o := readPieces (descr.agent 0 0) ds descr
        decide (atOnce descr 0 ds false = true ∧ o.sev < 3 ∧ leNat ((overlayPieces (descr.act 0).held ds o.bytes).take 8) = 0 ∧ effAddr descr.me.r x % 64 + 8 ≤ 64 ∧
          (checkAccess o.st 0 .a (effAddr descr.me.r x) 8).toOption = some [pieceL 8 8] ∧
          watched descr.me .w (readZ x.b x.lit descr % 2 ^ 60 + 2 ^ 60 + 8) 8 = none)
      | .error _ => false) = true := by
  unfold committedAlready
  decide +kernel

/-- Synchronises: masks 0, 1 and 3, a counter at zero, a commit that drains and one with nothing to do. -/
theorem test_wit_sync : readZ xa.b xa.lit (runs 1 64) % 64 = 0 ∧ readZ xa.b xa.lit (runs 1 1) % 64 = 1 ∧ readZ xa.b xa.lit (runs 1 3) % 64 = 3 ∧
    allAcked (runs 1 3) 0 = true ∧ weevilsOut (runs 1 3) 0 = false ∧ (runs 1 3).loading 0 = false ∧ (runs 1 3).me.c 3 = 0 ∧ committedAlready (past 1 3) ∧
    allAcked (past 1 3) 0 = true ∧ ((runs 1 3).act 0).restartable = true := by
  unfold committedAlready
  decide +kernel

/-- AddressesAndCaches: cvta of the last local byte and of an address without another form; pf and cwb of an empty range and of one
line of the own HBM, through an extent. -/
def mapped : State :=
  runs 0x3000000000010000 64 { act0 with extents := [BitVec.ofNat 128 (0x3000000000010000 * 2 ^ 64 + 65535 * 2 ^ 24 + 0xE8 * 2 ^ 16 + 1 * 512)],
                                         frags := [BitVec.ofNat 64 (5 * 2 ^ 16 + 1 * 64)] }
theorem test_wit_cvta : effAddr (runs 0x100000000006FFF7 2).me.r xm = 0x100000000006FFFF ∧
    0x100000000006FFFF / 2 ^ 60 = 1 ∧ 0x100000000006FFFF % 2 ^ 60 < 0x70000 ∧ xm.scope ≠ 5 ∧ { xm with scope := 5 }.scope = 5 ∧
    place 0 (effAddr (runs 0x3000000000000000 2).me.r xm) 1 = some .paged ∧ (runs 1 2).loading 0 = false ∧
    effAddr (runs 0x3FF7 2).me.r xm = 0x3FFF ∧ effAddr (runs 0x2000000007FEFFF7 2).me.r xm % 2 ^ 60 = 0x7FEFFFF ∧
    0x7FEFFFF % 2 ^ 19 < 0x70000 ∧ 0x7FEFFFF < 2 ^ 27 ∧
    (let lo := effAddr (runs 0xE00000000006FFF7 2).me.r xm % 2 ^ 60
     lo < 2 ^ 44 ∧ lo % 2 ^ 19 < 0x70000 ∧ (lo / 2 ^ 34 * 32768 + lo / 2 ^ 29 % 32 * 1024 + lo / 2 ^ 19 % 1024) / 256 = cluOf 0) ∧
    (let lo := effAddr (runs 0xE00000002006FFF7 2).me.r xm % 2 ^ 60
     lo / 2 ^ 29 % 32 < 24 ∧ (lo / 2 ^ 34 * 32768 + lo / 2 ^ 29 % 32 * 1024 + lo / 2 ^ 19 % 1024) / 256 ≠ cluOf 0) ∧
    (runs 1 2).owed 0 0 = false := by decide +kernel
def line5 : Piece := { va := 0x3000000000010008, pa := 5 * 65536 + 8, n := 64, ord := 1 }
theorem test_wit_cache : min (readZ xm.b xm.lit (runs 1 0)) 65536 = 0 ∧ min (readZ xm.b xm.lit mapped) 65536 = 64 ∧
    (judgeAccess mapped 0 .r false none (effAddr mapped.me.r xm) 64).toOption = some [line5] ∧
    (judgeAccess mapped 0 .w false none (effAddr mapped.me.r xm) 64).toOption = some [line5] ∧ mapped.cached.length + 64 / 64 + 2 ≤ cacheCap ∧ isSp line5.pa = false ∧ bhOfPa line5.pa = 0 ∧
    bhOfPa (line5.pa + 63) = 0 ∧ isSp (line5.pa + 63) = false ∧ (mapped.bu 0).migs = [] ∧ (mapped.bu 0).frames = [] := by decide +kernel

/-- SendsAreHeld: a connection of port 0 and index 0, its tag, room in the window, and an index that names no connection. -/
theorem test_wit_send : (runs 0 2).me.act.isSome = true ∧ ((runs 0 2).act 0).restartable = true ∧
    (connsOf (runs 0 2) 0).length = 1 ∧ (∀ c ∈ connsOf (runs 0 2) 0, (c.1.bits.extractLsb' 55 32).toNat = 0) ∧
    ((runs 0 2).act 0).q.tag.2.toNat + 1 < 2 ^ 32 ∧ windowFits ((runs 0 2).act 0) [] 1 = true ∧
    readSlices (runs 0 2).me.r.scalar (rngOf xm.a) = 0 ∧ readSlices (runs 1 2).me.r.scalar (rngOf xm.a) = 1 ∧
    ((runs 0 2).re 0).conns[1]? = none ∧ (re0.conns.map fun c => c.bits.getLsbD 0) = [true] := by decide +kernel
/-- SendsAreHeld: past the commit point, with everything acknowledged and with a load that is not. -/
theorem test_wit_sent : committedAlready (past 0 2) ∧ allAcked (past 0 2) 0 = true ∧
    allAcked { past 0 2 with flight := loads.flight, nextId := 1 } 0 = false ∧ ((past 0 2).co 0).sendq.length + 1 ≤ 64 ∧
    connsOf (past 0 2) 0 = [({ bits := 1, target := 0, tport := 0, f := 2 }, 0)] ∧ ((past 0 2).re 0).core = coreOf 0 ∧ (past 0 2).hasRe 0 = true ∧
    waitingOn (past 0 2) 0 0 = [] ∧ tagFits ((past 0 2).act 0).q.tag 0 := by
  unfold committedAlready tagFits
  decide +kernel
theorem test_wit_tags : tagFits (5, 1) 0 ∧ tagFits (5, 0xFFFFFFFE) 0 ∧ ¬ tagFits (5, 0xFFFFFFFF) 0 ∧ tagFits (0xFFFFFFFFFFFFFFFE, 9) 1 ∧
    ¬ tagFits (0xFFFFFFFFFFFFFFFF, 9) 1 := by
  unfold tagFits
  decide +kernel

/-- TimeRecordsAndBarriers: outside record and replay; larm and lpatch once committed; a barrier of two, arrived at first and last, a
wait that is over, and barriers 16 and without participants. -/
theorem test_wit_time : rpMode ((runs 1 2).bu 0) = 0 ∧ committedAlready (past 1 2) ∧ (1 : Nat).testBit 15 = false ∧
    ((past 1 2).act 0).q.tagm.toNat < 2 ^ 32 - 1 ∧ armWaits (past 1 2) 0 1 = false := by
  unfold committedAlready
  decide +kernel
/-- tnow in record mode with room in the trace buffer and with none, and in replay with its reading in the feed and without. -/
def recording (trctl : Nat) : State := { runs 1 2 with bh := [(0, { rpctl := 2 ^ 62, trctl := BitVec.ofNat 64 trctl })] }
def replaying (mem : List Host.Cell) : State := { runs 1 2 with bh := [(0, { rpctl := 2 ^ 63 })], mem := mem }
theorem feed_zeros (n : Nat) : leNat (List.replicate n (0 : Byte)) = 0 := by
  induction n with
  | zero => rfl
  | succ n ih => rw [List.replicate_succ, leNat, ih]; rfl
theorem feed_above {m : List Host.Cell} {a : Nat} (h : ∀ c ∈ m, c.1 < a) : Memory.rd m a = 0 := by
  induction m with
  | nil => rfl
  | cons c m ih => rw [Memory.rd, if_neg (Nat.ne_of_gt (h c List.mem_cons_self)), ih fun c hc => h c (List.mem_cons_of_mem _ hc)]
/-- A feed whose bytes all lie in its first record has no other record. -/
theorem feed_first {m : List Host.Cell} (h : ∀ c ∈ m, c.1 < 64) (p : Nat → Bool) (hp : p 0 = false) :
    ((List.range (feedCap (replaying m) 0)).map (feedRec (replaying m) 0)).filter p = [feedRec (replaying m) 0 0].filter p := by
  have hr (i : Nat) : feedRec (replaying m) 0 (i + 1) = 0 := by
    refine (congrArg leNat (List.eq_replicate_iff.2 ⟨by simp [Memory.rds], fun b hb => ?_⟩)).trans (feed_zeros 64)
    obtain ⟨k, -, rfl⟩ := List.mem_map.1 hb
    exact feed_above fun c hc => Nat.lt_of_lt_of_le (h c hc) (by omega)
  have hc : feedCap (replaying m) 0 = 1023 + 1 := by
    rw [feedCap, show ((replaying m).bu 0).rpctl = 2 ^ 63 from rfl]
    decide +kernel
  rw [hc, List.range_succ_eq_map, List.map_cons, List.map_map, List.filter_cons,
    List.filter_cons, List.filter_nil, List.filter_eq_nil_iff.2]
  intro r hm
  obtain ⟨i, -, rfl⟩ := List.mem_map.1 hm
  rw [Function.comp_apply, hr, hp]
  exact Bool.noConfusion
theorem test_wit_tnow : rpMode ((recording 0).bu 0) = 1 ∧ traceFull ((recording 0).bu 0) = false ∧ traceFull ((recording (2 ^ 61)).bu 0) = true ∧
    rpMode ((replaying []).bu 0) = 2 ∧ feedTnow (replaying []) 0 = none ∧
    feedTnow (replaying [(0, 5), (8, 1), (0x0F, 0x30), (0x20, 77)]) 0 = some 77 := by
  refine ⟨by decide +kernel, by decide +kernel, by decide +kernel, by decide +kernel, ?_, ?_⟩
  all_goals
    rw [feedTnow, show bhOf 0 = 0 from rfl]
    rw [feed_first (by decide)]
    · decide +kernel
    · rfl
/-- A disarming larm: a record that is empty, one whose gang lives, with the issuer's reactor in it and without, and one without a gang. -/
def gang (going : Bool) (keys : List Nat) : Gang := { record := 1, id := 2, keys := keys, going := going }
def launched (gs : List Gang) : State :=
  { past (2 ^ 16 * 2 + 2 ^ 15 + 1) 2 with mem := [(0x100100, 1)], bh := [(0, { bhpart := 2 ^ 63, plpool := 0x100001 })],
                                          part := [(0, { gangs := gs })], reac := [(0, re0), (1, { re0 with runTs := none })] }
theorem test_wit_larm : committedAlready (launched []) ∧ (opA xa (launched [])).testBit 15 = true ∧ opA xa (launched []) / 65536 % 2 ^ 20 = 2 ∧
    recordPa (launched []) 0 1 ≠ none ∧ recordPa (past 1 2) 0 1 = none ∧ gangLive (launched []) 0 2 1 = none ∧
    gangLive (launched [gang false [1]]) 0 2 1 = some (gang false [1]) ∧ gangLive (launched [gang true [0]]) 0 2 1 = none ∧
    gangLive (launched [gang true [1], gang false [0]]) 0 2 1 = some (gang false [0]) ∧
    ((launched []).act 0).reactor = 0 ∧ allAcked (launched []) 0 = true ∧ allAcked (past 1 2) 0 = true := by
  unfold committedAlready
  decide +kernel
def barState (arr : Nat) (w : Option (Nat × Nat)) : State :=
  { runs 1 3 with clu := [(0, { bars := [(3, { count := 2, arr := arr, epi := 5 })] })], thr := [(0, { th0 1 3 act0 with bar := w })] }
theorem test_wit_bar : (barState 0 none).me.bar = none ∧ readZ xa.b xa.lit (barState 0 none) = 3 ∧
    (Map.get {} ((barState 0 none).cl 0).bars 3).count = 2 ∧ storesOut (barState 0 none) 0 = false ∧
    (Map.get {} ((barState 1 none).cl 0).bars 3).arr = 1 ∧ (barState 0 (some (3, 4))).me.bar = some (3, 4) ∧
    (Map.get {} ((barState 0 (some (3, 4))).cl 0).bars 3).epi.toNat ≠ 4 ∧ 15 < readZ xa.b xa.lit (runs 1 16) ∧
    (Map.get {} ((runs 1 3).cl 0).bars 3).count = 0 := by decide +kernel


/-- The same with x3 and x6 too. -/
def regs4 (d a b c : Nat) : Regs := ((regsOf a b).put ⟨48, 16⟩ d).put ⟨96, 16⟩ c
def runs4 (d a b c : Nat) (act : Act := { act0 with restartable := false }) : State :=
  { State.reset with thr := [(0, { th0 a b act with r := regs4 d a b c })], reac := [(0, re0)] }

/-- VectorIntegerLanes, VectorMoves, VectorCompares, DotAndReduce, FloatLanes, QuantiseAndReduce: eight selected lanes, one lane, and
the tree of vfred over one lane. -/
def lane7 : State := { runs 1 2 with thr := [(0, { th0 1 2 act0 with r := { regsOf 1 2 with masks := 0xFF00000000000080 } })] }
theorem test_wit_lanes : (runs 1 2).me.r.lanes G7 = 0xFF ∧ lane7.me.r.lanes ⟨false, 0⟩ = 0x80 ∧ (runs 1 2).me.r.lanes G7 ≠ 0 := by decide +kernel
theorem test_wit_vfred : selLanes (lane7.me.r.lanes ⟨false, 0⟩) = [7] ∧ (selLanes ((runs 1 2).me.r.lanes G7)).length ≠ 1 ∧
    tree (fun (a _ : FRes) => a)
      ((List.range 8).map fun l => if ((runs 1 2).me.r.lanes G7).getLsbD l = true then some (l, {}) else none) = some (0, {}) := by
  decide +kernel
/-- QuantiseAndReduce: a codebook in a bank of layout 0, and one in bank 3, whose layout is 0x17, at its last line. -/
def books : State := { runs 1 2 { act0 with restartable := false } with core := [(0, { bfmt := [(2, 0x7FF * 2 ^ 51), (3, 0x17)] })] }
theorem test_wit_vqcb_at_once : watched books.me .r (2 ^ 60 + 0x1FFC0) 32 = none ∧ watched (runs 1 2).me .r (2 ^ 60) 32 = none ∧
    blocked books 0 { ts := 0, ps := [{ va := 2 ^ 60 + 0x1FFC0, pa := spAddr 0 0x1FFC0, n := 32 }] } = false ∧
    watched { books.me with watch := [(0, { addr := 2 ^ 60 + 0x1FFC8, len := 8, wr := false, rd := true })] } .r (2 ^ 60 + 0x1FFC0) 32 =
      some (2 ^ 60 + 0x1FFC8) := by decide +kernel
theorem test_wit_vqcb : ((runs 1 2).bfmt 0 (0 / 0x8000)).toNat % 256 ≠ 0x17 ∧ (runs 1 2).loading 0 = false ∧ (runs 1 2).owed 0 0 = false ∧
    (books.bfmt 0 2).toNat / 2 ^ 51 * 64 = 0x1FFC0 ∧ (books.bfmt 0 (0x1FFC0 / 0x8000)).toNat % 256 = 0x17 ∧
    Map.get? books.flips (spAddr 0 0x1FFC0 / 64) = none ∧ books.poison.contains (spAddr 0 0x1FFC0 / 64) = false ∧
    (books.act 0).held = [] ∧ (books.bu 0).mwatch = [] ∧ (books.bu 0).migs = [] ∧ { xv with c := ⟨0, false, 0, 2⟩ }.c.bits.toNat % 16 = 2 := by
  decide +kernel

/-- AccumulatorAccess: no command in flight, element 1023 poisoned and not. -/
def sick : State := { runs 1 127 with thr := [(0, { th0 1 127 act0 with acc := Vector.replicate 4 { poison := 2 ^ 1023 } })] }
theorem test_wit_acc : accBusy (runs 1 127) 0 3 false = false ∧ (elemOf (runs 1 127) 0 3 1023).2 = false ∧ (elemOf sick 0 3 1023).2 = true ∧
    32 * (127 % 32) + 8 * (127 / 32 % 4) + 7 = 1023 := by decide +kernel

/-- EngineCommandsIssue: each command of the array, past the commit point, with tiles of the own scratchpad. -/
def cmds (b : Nat) : State := runs4 (L 0x2000) (L 0) b (L 0x4000)
theorem test_wit_may (b : Nat) (h : (cmds b).me.c 2 < 255 := by decide +kernel) : mayCommand G7 xt (cmds b) :=
  ⟨by rfl, h, by rfl, fun h => by simp [xt] at h⟩
theorem test_wit_mma : masksStand xt (cmds (L 0x1000)) ∧ committedAlready (cmds (L 0x1000)) ∧
    (mmaTiles xt (addrA xt (cmds (L 0x1000))) (addrB xt (cmds (L 0x1000))) (cmds (L 0x1000))).isOk = true := by
  unfold masksStand committedAlready
  decide +kernel
theorem test_wit_mtld : pitchOk 16 = true ∧ pitchOk 524272 = true ∧ addrA xt (cmds 16) % 16 = 0 ∧ readZ xt.b xt.lit (cmds 16) = 16 ∧
    operandB xt (cmds 16) = 16 ∧ sizeLayout (cmds 16) (addrA xt (cmds 16)) 16 (((cmds 16).me.ac 1).rowsRead xt.masks) = 0 ∧
    tileFails 0 (addrA xt (cmds 16)) 16 (4 * typeBits xt.aty.toNat 0 false) (((cmds 16).me.ac 1).rowsRead xt.masks) = none ∧
    tileFails 0 (addrA xt (cmds 16)) 16 (4 * typeBits xt.bty.toNat 0 false) (((cmds 16).me.ac 1).rowsRead xt.masks) = none ∧
    16 % 2 ^ 32 = 16 ∧ (16 : Nat) / 2 ^ 51 = 0 ∧ 0x5FF40 / 64 * 64 = 0x5FF40 ∧ 0x5FF40 + 192 = 0x60000 := by decide +kernel
theorem test_wit_msave : tileFails 0 (addrA xt (cmds 0)) 0 4288 [0] = none ∧ addrA xt (cmds 0) % 64 = 0 ∧
    (tilePlace 0 (addrA xt (cmds (L 0x1000)))).isSome = true ∧ (tilePlace 0 (addrB xt (cmds (L 0x1000)))).isSome = true := by decide +kernel
/-- A copy of 64 bytes within the scratchpad, and the copy of a cpm: from x4 to x5, with B at x6. -/
def xcp : XT := { xt with d := S 15 48 }
def xcpm : XT := { xt with b := S 15 96 }
theorem test_wit_cp : (copyCmd (cmds 64) 0xB7 xcp (readSlices (cmds 64).me.r.scalar (rngOf xcp.d)) (addrA xcp (cmds 64))
      (operandB xcp (cmds 64)) none).toOption.isSome = true ∧ readZ xcp.b xcp.lit (cmds 64) ≤ 16777216 ∧
    readSlices (cmds 64).me.r.scalar (rngOf xcp.d) / 2 ^ 60 = 1 := by decide +kernel
theorem test_wit_cpm : let s := cmds (L 0x2000)
    let dva := readSlices s.me.r.scalar ⟨xcpm.a.start.toNat + 16, 16⟩
    let pitch := rowPitch xcpm.bty.toNat (xtK xcpm)
    masksStand xcpm s ∧ (mmaTiles xcpm (addrB xcpm s) dva s).isOk = true ∧ tileFails s.cur dva 0 (32 * pitch) [0] = none ∧
      (copyCmd s 0xB8 xcpm dva (addrA xcpm s) (32 * (pitch * 8 / typeBits xcpm.bty.toNat 0 true))
        (some (typeLay xcpm.bty.toNat))).toOption.isSome = true := by
  unfold masksStand
  decide +kernel

/-- TrapsFreeze, SystemRegisters, Counters: settled, unprivileged and privileged, with register and counter numbers at the ends of
their ranges, and with values that are well formed and that are not. -/
theorem test_wit_trap : settled (runs 1 2) ∧ ((runs 1 2).act 0).priv = false ∧ ((priv 1 2).act 0).priv = true := by
  unfold settled
  decide +kernel
theorem test_wit_sys : (readZ xa.b xa.lit (runs 1 0x5FF) = 0x5FF) ∧ (0x31F#64 &&& ~~~0x31F#64 = 0) ∧ (0x20#64 &&& ~~~0x31F#64 ≠ 0) ∧
    sysAssigned 5 = false ∧ sysAssigned 0x600 = false ∧ committedAlready (past 1 0x10) ∧
    ∃ t, exec (.bfmtWrite 0 1) (priv 1 0x10) = .next t := by
  unfold committedAlready
  exact ⟨by decide +kernel, by decide +kernel, by decide +kernel, by decide +kernel, by decide +kernel, by decide +kernel, _, rfl⟩
/-- SystemRegisters: CTRCFG0 to CTRCFG3, with a value that is well formed and one whose code is not. -/
theorem test_wit_ctrcfg : readZ xa.b xa.lit (priv 0xF0B 0x33) = 0x30 + 3 ∧ opA xa (priv 0xF0B 0x33) % 256 ≤ 0xB ∧
    opA xa (priv 0xF0B 0x33) / 256 % 16 ≠ 0 ∧ opA xa (priv 0xF0B 0x33) / 2 ^ 12 % 2 ^ 12 = 0 ∧ 0xC % 256 = 0xC := by decide +kernel
theorem test_wit_ctr : (Map.get {} ((runs 1 3).co 0).cfg 3).evt ≠ 1 ∧ readZ xa.b xa.lit (runs 1 15) = 15 ∧
    (0xF17 : Nat) % 256 ≤ 0x17 ∧ 0x10 ≤ (0xF17 : Nat) % 256 ∧ (0xF17 : Nat) / 256 % 16 ≠ 0 ∧ ¬ ((0xFFF : Nat) % 256 ≤ 0x17) := by decide +kernel

/-- FreezeAndThaw: thread set 1 of the core runs, is frozen, or is free; in its code page, a word of one. -/
def two (m : Mode) (b : Nat) : State :=
  { priv 0x100 b with thr := [(0, { th0 0x100 b { act0 with restartable := false, priv := true } with r := regsOf 0x100 b }),
    (1, { th0 1 2 act0 with mode := m })] }
theorem test_wit_freeze : mayAct G7 (two .run 0) ∧ opA xa (two .run 0) = 0x100 ∧ opA xa (priv 1024 0) = 1024 ∧ opA xa (priv 0 0) = 0 ∧
    ((two .run 0).th 1).mode = .run ∧ (two .run 0).loading 1 = false ∧ (two .run 0).owed 1 0 = false ∧ ((two .frozen 0).th 1).mode = .frozen ∧
    ((two .free 0).th 1).mode = .free ∧ readZ xa.b xa.lit (two .frozen 3) = 3 ∧
    (two .frozen 1).codeWord 1 ((two .frozen 1).th 1).pc = some 0 ∧ ((two .frozen 1).th 1).repAct = false ∧
    ((two .frozen 2).act 1).kind ≠ .trap ∧ requestBefore (two .run 0) 0 1 0 = false ∧ myTurn (two .run 0) 1 = none := by
  unfold mayAct committedAlready
  decide +kernel
/-- A freeze of the same target by another thread set that is not served yet. -/
theorem test_wit_freeze_waits : let s := { two .run 0 with flight := [(0, .freeze 2 1 48 16)], nextId := 1 }
    (∃ e ∈ s.flight, e.1 < s.nextId ∧ ∃ v d w, e.2 = .freeze v 1 d w ∧ v ≠ s.cur) ∧ myTurn s 1 = none :=
  ⟨⟨_, List.mem_singleton_self _, by decide, _, _, _, rfl, by decide⟩, by decide +kernel⟩

/-- MigrateAndSeal: bulkhead 0 is a partition of its own; reactor 1 of core 0 may go to core 1, and may not where it is moving or has
no room; cores 0, 1 and 1,024 as cores to seal. -/
def pod (a b : Nat) (r : Reactor := { re0 with st := .run, runTs := none, started := true }) : State :=
  { priv a b with reac := [(0, re0), (1, r)], bh := [(0, { bhpart := 2 ^ 63 })] }
theorem test_wit_migrate : mayAct G7 (pod 1 4) ∧ (pod 65536 4).hasRe 2 = false ∧ (pod 1 4).hasRe 1 = true ∧ ((pod 0 4).act 0).reactor = 0 ∧
    unitOk 4 = true ∧ (pod 1 4).partOf? (bhOf 4) = (pod 1 4).partOf? (bhOf 0) ∧ ((pod 1 4).partOf? (bhOf 0)).isSome = true ∧
    ((pod 1 4).re 1).st ≠ .move ∧ hasRoom (pod 1 4) ((pod 1 4).re 1) 1 = true ∧ ((pod 1 4).re 1).runTs ≠ some 0 ∧
    hasRoom (pod 1 4 { re0 with regions := [(0, 0, 0x60000)], runTs := none }) { re0 with regions := [(0, 0, 0x60000)], runTs := none } 0 = false ∧
    (pod 1 4096).partOf? (bhOf 4096) ≠ (pod 1 4096).partOf? (bhOf 0) := by
  unfold mayAct committedAlready
  decide +kernel
theorem test_wit_seal : ((pod 4 1).reac.any fun e => e.2.core == coreOf 4) = false ∧ coreOf 4 ≠ coreOf (pod 4 1).cur ∧ coreOf 3 = coreOf (pod 4 1).cur ∧
    ((pod 4 1 { re0 with core := 1 }).reac.any fun e => e.2.core == coreOf 4) = true := by decide +kernel

/-- WatchSignAndPoison: lengths 2^16 and 2^30, a range of the own HBM and one that is not, a free slot and none, and sectors. -/
def wb (side : Nat) (l : Nat) : Nat := l * 2 ^ 13 + 2 ^ 11 + side * 2 ^ 10
theorem test_wit_watch : wb 0 16 / 2 ^ 34 = 0 ∧ wb 0 16 / 2 ^ 11 % 4 ≠ 0 ∧ wb 0 16 / 2 ^ 13 % 32 = 16 ∧ (wb 0 16).testBit 10 = false ∧
    wb 1 30 / 2 ^ 13 % 32 = 30 ∧ (wb 1 30).testBit 10 = true ∧ watchPa (priv 0 (wb 1 6)) 0 64 = none ∧
    ((priv 0 0).th 0).watch.map (·.1) = [] ∧ ((priv 0 0).bu 0).mwatch.map (·.1) = [] ∧ (priv 0 0).hasRe 0 = true := by decide +kernel
/-- Bulkhead 0 as a partition, with page tables that map the first 1 GiB of the first window to 0x40000000. -/
def tables : List Host.Cell := [(0x100000, 5), (0x100002, 0x11), (0x110000, 5), (0x110001, 0x40), (0x110002, 0x11), (0x114000, 0x3F),
  (0x114003, 0x40)]
def tabled (s : State) : State := { s with mem := tables, bh := [(0, { bhpart := 2 ^ 63, proot := 0x100000 })] }
theorem test_wit_watchPa : watchPa (tabled (priv 1 2)) 0x3000000000010000 64 = some 0x40010000 := by decide +kernel
theorem test_wit_pwrite : place 0 (opA xa (priv (L 0) 65)) (min (readZ xa.b xa.lit (priv (L 0) 65)) 16777216) = some (.sp 0 0x1000) ∧
    allAcked (priv (L 0) 65) 0 = true ∧ ((priv (L 0) 65).bu 0).migs = [] ∧ ((priv (L 0) 65).bu 0).mwatch = [] := by decide +kernel

/-- BankFormatWrites: an owner by privilege, one by its region, and none; a write that keeps the layout and one that does not; and a
rewriting whose bank no access touches. -/
def owner : State := runs 1 2 { act0 with restartable := false } { re0 with regions := [(0, 0x8000, 0x8000)] }
theorem test_wit_owns : ownsBank (priv 1 2) 11 ∧ ownsBank owner 1 ∧ ¬ ownsBank (runs 1 2) 5 := by
  refine ⟨.inl (by decide +kernel), .inr fun o h1 h2 => ⟨(0, 0x8000, 0x8000), by decide +kernel, by simp at *; omega⟩, ?_⟩
  rintro (h | h)
  · exact absurd h (by decide +kernel)
  · obtain ⟨g, hg, h1, h2⟩ := h 0x28000 (by decide) (by decide)
    have e : ((runs 1 2).re ((runs 1 2).act (runs 1 2).cur).reactor).regions = [(0, 0x1000, 0x1000)] := by decide +kernel
    rw [e] at hg
    simp at hg
    subst hg
    simp at h2
def rewr : State := { priv 1 2 with core := [(0, { rewriting := [(3, 1, 0, 7)] })], thr := [(0, { th0 1 2 act0 with mode := .stalled 7 })] }
theorem test_wit_bank : bfmtOk 1 = true ∧ bfmtOk 5 = false ∧ ((priv 1 2).bfmt 0 3).extractLsb' 0 11 ≠ (1 : W64).extractLsb' 0 11 ∧
    bfmtOk (2 ^ 51) = true ∧ ((priv 1 2).bfmt 0 3).extractLsb' 0 11 = (2 ^ 51 : W64).extractLsb' 0 11 ∧
    (rewr.co 0).rewriting = (3, 1, 0, 7) :: [] ∧ touching rewr 0 3 7 = false ∧ (rewr.th 0).mode = .stalled 7 := by decide +kernel

/-- SystemRegisterSteps: a formed activation of the issuer's partition, translated. -/
theorem test_wit_pginv : ((pod 1 4 { re0 with runTs := none, st := .ready, pend := some { act := act0 } }).re 1).pend = some { act := act0 } ∧
    (pod 1 4).partOf? (bhOfReac 1) = (pod 1 4).partOf? (bhOf (pod 1 4).cur) ∧ ((priv 1 2).act 0).priv = true ∧
    (pod 1 4).partOf? (bhOfReac (4 * 65536)) ≠ (pod 1 4).partOf? (bhOf (pod 1 4).cur) := by decide +kernel

/-- FrameControl: a page of one frame of the own HBM, unmarked, withdrawn, being filled, and with one line in the bounce buffer. -/
def framed (m : Map FrameSt) (bl : List Bounce) : State :=
  { priv 1 2 with bh := [(0, { bhpart := 2 ^ 63, attrBase := 0x1000000, frames := m, bounce := bl })] }
def line1 : Bounce := { pa := 0x50040, bytes := [(1, 7), (2, 8)] }
theorem test_wit_frame : frmPage (framed [] []) (5 * 2 ^ 16) = some (0x50000, 65536) ∧ frmPage (framed [] []) (0xFFFF * 2 ^ 44) = none ∧
    frmBusy (framed [] []) 0x50000 65536 = false ∧ markOf (framed [] []) 0x50000 0 = none ∧
    markOf (framed [(5, .withdrawn)] []) 0x50000 0 = some .withdrawn ∧ markOf (framed [(5, .filling)] [line1]) 0x50000 0 = some .filling ∧
    line1.bytes = [(7 : Byte), 8].zipIdx.map (fun x => (1 + x.2, x.1)) ∧ ((framed [(5, .filling)] [line1]).bu 0).bounce = [line1] ∧
    line1.poison = false ∧ Map.get? (framed [] []).flips (line1.pa / 64) = none ∧ Memory.wf (framed [] []).mem = true := by decide +kernel

/-! #### Acknowledgements, engines and requests -/

/-- One piece of work in flight under number 3, and bulkheads 0 and 1 as one partition. -/
def flying (f : Flight) (s : State := runs 1 2) : State :=
  { s with flight := [(3, f)], nextId := 4, bh := [(0, { bhpart := 2 ^ 63 }), (1, { bhpart := 2 ^ 63 })] }
/-- Eight bytes of the HBM of bulkhead 1. -/
def far1 : Piece := { va := 0x3000000000000040, pa := 2 ^ 37 + 0x10000040, n := 8 }
def near0 : Piece := { va := 0x3000000000000040, pa := 0x10000040, n := 8 }
def bs8 : List Byte := [1, 2, 3, 4, 5, 6, 7, 8]

/-- StoresAndDrainsEnd: an acknowledged, a refused and an unperformed store; a drain; a commit that is drained, with no event and with
one whose connection has an entry; and done. -/
def oneMsg : State :=
  { State.reset with thr := [(0, { th0 1 2 { act0 with msgs := [{ reactor := 0, conn := 0, tagt := 5, tagm := 2, sender := 0 }] } with
                              mode := .drained false })], reac := [(0, re0)] }
theorem test_wit_drain : (oneMsg.th 0).mode = .drained false ∧ (oneMsg.act 0).msgs = [{ reactor := 0, conn := 0, tagt := 5, tagm := 2, sender := 0 }] ∧
    (oneMsg.co 0).sendq.length < 64 ∧ oneMsg.hasRe 0 = true ∧ (oneMsg.re 0).conns[0]? = some { bits := 1, target := 0, tport := 0, f := 2 } ∧
    waitingOn oneMsg 0 0 = [] ∧ bhOfReac 0 = bhOfReac 0 := by decide +kernel
def store8 (done : Bool) (res : Result) : StoreReq := { ts := 0, ctr := some 3, group := 3, p := far1, bytes := bs8, performed := done, res := res }
theorem test_wit_ack : (flying (.store (store8 true (.refused 9)))).fl? 3 = some (.store (store8 true (.refused 9))) ∧
    ((runs 1 2).th 0).gen = (store8 true .ok).gen ∧
    (∀ e ∈ (flying (.store (store8 true .ok))).flight, ∀ r, e.2 = .store r → e.1 ≠ 3 → r.ctr.isSome = true → r.ts = 0 → r.gen = 0 →
      r.group ≠ 3) ∧
    (runs 1 2).hasRe 0 = true ∧ ringsApart re0 ∧ Memory.wf (runs 1 2).mem = true ∧ bhOfPa far1.pa ≠ bhOf 0 := by
  refine ⟨rfl, rfl, ?_, by unfold ringsApart; decide +kernel⟩
  intro e he
  have : e.1 = 3 := by simp [flying] at he; simp [he]
  intros; omega

/-- A store whose target has another owner traps its activation, R25 (log 60). -/
def turned : StoreReq := { store8 true (.notOwner 9) with ctr := none }
theorem test_store_owner : turned.ctr = none ∧ ((flying (.store turned)).th 0).gen = turned.gen ∧ ((flying (.store turned)).th 0).mode = .run ∧
    (flying (.store turned)).awaits 0 = false ∧ ((nx (exec (.storeAck 3) (flying (.store turned)))).th 0).tval = 9 := by decide +kernel

/-- CommandsComplete and IntegerMultiplyAccumulate: the one command in flight is the next to complete. -/
def cmd (op : Nat) : Cmd := { op := op, x := xt }
theorem test_wit_completes (mat : Bool) (op : Nat) :
    completes (flying (.engine 0 0 mat 0 2 0 (5, 1) (cmd op) false)) 3 0 0 mat 0 2 0 (5, 1) (cmd op) false := by
  refine ⟨rfl, rfl, by simp [cmd, xt], ?_, by simp [storesBefore, flying], fun h => ?_, rfl, rfl, rfl,
    show ringsApart re0 from by unfold ringsApart; decide, ?_, rfl⟩
  · intro e he
    have : e.1 = 3 := by simp [flying] at he; simp [he]
    intros; omega
  · subst h
    simp [copyHeld, flying]
  · unfold quiet
    intro e he
    have : e = (0, re0) := by simpa [flying, runs] using he
    subst this
    exact ⟨nofun, nofun, nofun⟩
theorem test_wit_plain : plain (flying (.heldRead 0)) 0 ∧ plain (flying (.heldRead 0)) 1 ∧
    (∃ o, (pieceL 0x1000 64).pa = spAddr 0 o ∧ o + 64 ≤ 0x60000) ∧
    (∀ i, i < 1024 → (spAddr 0 (0x58000 + i) < (pieceL 0x2000 64).pa ∨ (pieceL 0x2000 64).pa + 64 ≤ spAddr 0 (0x58000 + i)) ∧
      (spAddr 0 (0x59000 + i) < (pieceL 0x2000 64).pa ∨ (pieceL 0x2000 64).pa + 64 ≤ spAddr 0 (0x59000 + i))) := by
  refine ⟨by unfold plain; decide +kernel, by unfold plain; decide +kernel, ⟨0x2000, by decide +kernel, by decide⟩, by decide +kernel⟩
theorem test_wit_tiles : let t : Tile := { va := L 0, core := 0, off := 0x1000, pitch := 64 }
    t.ok = true ∧ t.scv = false ∧ t.core = coreOf 0 ∧ t.off + 31 * t.pitch + 4096 ≤ 0x60000 := by decide +kernel

/-- RequestsAreServed: a load and an atomic of the own bulkhead and of another, a store to another, each let in; one that the gate of a
bulkhead of another partition refuses; and a withdrawn frame. -/
def loadOf (p : Piece) (a : Option Atomic) : Flight := .load 0 3 { start := 48, width := 16, lanes := [(0, [p])] } a false false {} {} none
def foreign (f : Flight) : State := { flying f with bh := [(0, { bhpart := 2 ^ 63 }), (1, { bhpart := 2 ^ 63 + 2 ^ 48 })] }
def drawn (f : Flight) : State := { flying f with bh := [(0, { frames := [(0x1000, .withdrawn)] })] }
theorem test_wit_served : performs (flying (loadOf far1 none)) 3 0 0 far1 .r 4 false false ∧
    performs (flying (loadOf near0 none)) 3 0 0 near0 .r 0 false false ∧
    performs (flying (loadOf near0 (some {}))) 3 0 0 near0 .a 0 false false ∧
    (near0.n = ({} : Atomic).size) ∧ ((runs 1 2).act 0).priv = false := by
  unfold performs
  decide +kernel
theorem test_wit_plainPiece : plainPiece (flying (loadOf far1 none)) far1 ∧ plainPiece (flying (loadOf near0 none)) near0 := by
  unfold plainPiece plain Safety.memOk
  decide +kernel
theorem test_wit_refused : gateReady (foreign (loadOf far1 none)) 3 = true ∧ heldPiece (foreign (loadOf far1 none)) far1 = false ∧
    reach (foreign (loadOf far1 none)) (seen (foreign (loadOf far1 none)) 0 0 4 false false) far1 .r ≠ .ok ∧
    heldPiece (drawn (loadOf near0 none)) near0 = true ∧ gateReady (drawn (loadOf near0 none)) 3 = true ∧
    reach (drawn (loadOf near0 none)) (seen (drawn (loadOf near0 none)) 0 0 0 false false) near0 .r = .ok ∧ bhOfPa far1.pa ≠ bhOf 0 := by decide +kernel
theorem test_wit_store_served : let f := Flight.store (store8 false .ok)
    gateReady (flying f) 3 = true ∧ reach (flying f) (farAgent (flying f) 0 0 4 false) far1 .w = .ok ∧ bs8.length = far1.n ∧
    reach (foreign f) (farAgent (foreign f) 0 0 4 false) far1 .w ≠ .ok := by decide +kernel

/-- WeevilOperations and WeevilReplies: each operation asked of the Weevil of bulkhead 1, and a reply that is ok and one that is not. -/
def request (w : Weevil) (r : Option WReply := none) (p : Piece := far1) : WeevilReq :=
  { ts := 0, ctr := 2, d := some (48, 16), va := p.va, p := p, w := w, reply := r }
def weevil (w : Weevil) (r : Option WReply) (p : Piece := far1) : State := flying (.weevil (request w r p))
def far2 : Piece := { far1 with n := 16 }
theorem test_wit_asked (w : Weevil) : asked (weevil w none) 3 (request w) := by
  refine ⟨rfl, rfl, fun e he v hv h => ?_⟩
  have : e.1 = 3 := by simp [weevil, flying] at he; simp [he]
  omega
theorem test_wit_weevil : performs (weevil (.famo {}) none) 3 0 0 far1 .a 3 false false ∧
    performs (weevil (.mcas 0 [1] [2]) none) 3 0 0 far1 .a 3 false false ∧ performs (weevil (.lenq 64) none far2) 3 0 0 far2 .a 3 false false ∧
    performs (weevil (.pchase 5 0 false false none) none far2) 3 0 0 far2 .a 3 false false ∧
    (Map.get ({} : Wire) (weevil (.famo {}) none).wire 3).group = [] ∧ isLed (weevil (.famo {}) none) 3 = false ∧
    wordAt (weevil (.lenq 64) none far2) (far2.pa + 8) 8 = 0 := by
  unfold performs
  decide +kernel
/-- R420, R421: of two famo requests that a switch has combined, adding 3 and 5 to 0, the first gets 0 and the second 3, and 8 stands. -/
def combined : State :=
  { flying (.heldRead 0) with
    flight := [(3, .weevil (request (.famo { b := 3 }))), (4, .weevil { request (.famo { b := 5 }) with ts := 1 })],
    wire := [(3, { asks := [(0, 7)], group := [((0, 7), 3), ((1, 9), 5)] }), (4, { asks := [(1, 9)] })] }
theorem test_combined : let t := nx (exec (.weevilFamo 3) combined)
    wordAt t far1.pa 8 = 8 ∧ t.flight.map (fun e => match e.2 with
      | .weevil q => q.reply.map (·.v)
      | _ => none) = [some 0, some 3] := by decide +kernel
theorem test_wit_hop : let s := tabled (weevil (.pchase 5 1 false false (some 0x3000000000010040)) none)
    (match weevilHop s ((request (.pchase 5 1 false false (some 0x3000000000010040))).agent s (bhOfPa far1.pa)) (bhOf 0) 0x3000000000010040 16 .r with
      | .go p => bhOfPa p.pa != bhOfPa far1.pa
      | _ => false) = true := by
  decide +kernel
theorem test_wit_weevil_plain : plainPiece (weevil (.famo {}) none) far1 ∧ plainPiece (weevil (.famo {}) none) far2 := by
  unfold plainPiece plain Safety.memOk
  decide +kernel
theorem test_wit_reply : (weevil (.famo {}) (some { v := 7 })).fl? 3 = some (.weevil (request (.famo {}) (some { v := 7 }))) ∧
    (∀ e ∈ (weevil (.famo {}) (some { v := 7 })).flight, ∀ v, e.2 = .weevil v → v.ts = 0 → v.va = far1.va → 3 ≤ e.1) ∧
    ((runs 1 2).th 0).gen = 0 ∧ ((runs 1 2).th 0).act.isSome = true ∧ ({ res := .grave 9 } : WReply).res ≠ .ok ∧
    ((weevil (.famo {}) (some { res := .notOwner 9 })).th 0).mode = .run ∧
    ((weevil (.famo {}) (some { res := .notOwner 9 })).endFl 3).awaits 0 = false := by
  refine ⟨rfl, ?_, rfl, rfl, by decide, rfl, rfl⟩
  intro e he
  have : e.1 = 3 := by simp [weevil, flying] at he; simp [he]
  intros
  omega

/-- LocalTime: a device that is not the root and one that is, with no plane measured yet, and an exchange of one. -/
def synced : State := { runs 1 2 with bh := [(0, { bhpart := 2 ^ 63 }), (32, { bhpart := 2 ^ 63 })], link := [(0, { up := 2 }), (32, { up := 2 })] }
theorem test_wit_time_root : rootOf (runs 1 2) 0 0 = 0 ∧ rootOf (runs 1 2) 1 0 ≠ 1 ∧ cricketLost (runs 1 2) 0 = false ∧
    ((runs 1 2).chanOf 1 0).planes = [] ∧ timingPlane synced 1 0 0 = true := by decide +kernel

/-! #### Entries, dispatch, translation and the life of a reactor -/

/-- EntriesArrive: a running reactor with a free slot, an entry above its horizon, and one that is not. -/
def q5 (tagt : W64) : QEntry := { tagt := tagt, tagm := 1, sender := 0, payload := 0xAABBCCDD00112233 }
def arriving (tagt : W64) : State := flying (.entry 0 (q5 tagt) (.conn 0 0)) (runs 1 2 act0 { re0 with horizon := some (5, 1) })
theorem test_wit_arrive : (arriving 6).fl? 3 = some (.entry 0 (q5 6) (.conn 0 0)) ∧ (q5 6).port < 16 ∧ ((arriving 6).re 0).st = .run ∧
    ((arriving 6).connOf (.conn 0 0)).isSome = true ∧ (∀ c ∈ (arriving 6).connOf (.conn 0 0), c.lost = false ∧ c.dead = false) ∧
    (0 < ((arriving 6).re 0).depth) ∧ ((arriving 6).re 0).entries = [] ∧ ((arriving 5).re 0).horizon = some (5, 1) ∧
    ¬ ((5 : W64) < (q5 5).tagt ∨ (5 : W64) = (q5 5).tagt ∧ (1 : W32) < (q5 5).tagm) ∧
    ((5 : W64) < (q5 6).tagt) ∧ (∀ u ∈ ((arriving 5).re 0).runTs, ((arriving 5).act u).restartable = true) ∧ (past 1 2).me.act.isSome = true := by
  decide +kernel
theorem test_wit_quiet : quiet (arriving 6) := by
  unfold quiet
  intro e he
  have : e.1 = 0 := by simp [arriving, flying, runs] at he; simp [he]
  rw [this]
  decide +kernel

/-- ActivationsStart: a ready activation and a free thread set of a running partition; a trap entry with a buddy; one that ages. -/
def ready : State :=
  { State.reset with reac := [(0, { re0 with st := .ready, runTs := none, pend := some { act := { act0 with q := q5 6 } } })],
                     bh := [(0, { bhpart := 2 ^ 63, pcfg := 2 ^ 63 })] }
def trapping : State :=
  { ready with thr := [(4, { th0 1 2 { act0 with reactor := 1 } with mode := .frozen, tcause := 0xF })], reac := [(0, { re0 with runTs := none })],
               clu := [(0, { traps := [{ ts := 4 }], pairs := [(1, 2 ^ 49)] })] }
theorem test_wit_trapping : pickCand trapping 0 = some (.trap { ts := 4 } 0) ∧ freeSets trapping 0 = [0, 1, 2, 3] ∧
    (∀ i, i < 10 → ((trapping.re 0).exts[i]?.getD 0).getLsbD 31 = false) ∧ (backupOf trapping 4).isSome = true := by decide +kernel
theorem test_wit_dispatch : freeSets ready 0 = [0, 1, 2, 3] ∧ pickCand ready 0 = some (.ord 0) ∧ (ready.re 0).pend = some { act := { act0 with q := q5 6 } } ∧
    ready.hasRe 0 = true ∧ (ready.co 0).killed = false ∧ (ready.bu (bhOfCore 0)).reset = false ∧ (ready.bu (bhOfCore 0)).pwrSt = 0 ∧ (ready.re 0).st = .ready := by decide +kernel

/-- EntriesAreReturned: a credit for a connection with entries and for one with an event that waits; a spare request and its grant; a
rewrite notice, its acknowledgement, and a forwarding entry. -/
def credits (fs : Map Flight) (c : Conn) (x : Reactor := re0) : State := { State.reset with reac := [(0, { x with conns := [c] })], flight := fs }
def c0 : Conn := { bits := 1, target := 0, tport := 0, f := 0 }
def m0 : Msg := { reactor := 0, conn := 0, tagt := 5, tagm := 2, sender := 0 }
def queued : State := { credits [(3, .credit 0 0), (2, .event m0)] c0 with core := [(0, { sendq := [2] })] }
def granting : State :=
  { credits [(2, .event m0)] { c0 with asked := true } { re0 with spareReqs := [(0, 0)] } with core := [(0, { sendq := [2] })] }
theorem test_wit_credit : (credits [(3, .credit 0 0)] c0).fl? 3 = some (.credit 0 0) ∧ ((credits [(3, .credit 0 0)] c0).re 0).conns[0]? = some c0 ∧
    waitingOn (credits [(3, .credit 0 0)] c0) 0 0 = [] ∧ waitingOn queued 0 0 = [(2, m0)] ∧ c0.dead = false ∧ c0.f = 0 ∧
    queued.fl? 2 = some (.event m0) ∧ c0.asked = false ∧ queued.hasRe (liveKey queued 4 c0.target) = true ∧
    gateDrops queued 0 (connBh queued 0 0) = false ∧ (granting.re 0).spareReqs = (0, 0) :: [] ∧ 0 < (granting.re 0).spares ∧ waitingOn granting 0 0 = [(2, m0)] := by decide +kernel
def fwd0 : Fwd := { ocore := 0, orid := 0, ncoord := 4, nrid := 1, pend := 1, born := 0 }
def notices (f : Flight) : State := { credits [(3, f)] c0 with clu := [(0, { fwd := [(7, fwd0)] })] }
theorem test_wit_notice : (notices (.notice 0 0 0 7)).fl? 3 = some (.notice 0 0 0 7) ∧ ((notices (.notice 0 0 0 7)).re 0).conns[0]? = some c0 ∧
    ((notices (.notice 0 0 0 7)).cl 0).fwd.find? (fun e => e.1 == 7) = some (7, fwd0) ∧
    (((notices (.noticeAck 0 7 0)).ticks (bhOfClu 0) + 2 ^ 32 - fwd0.born.toNat) % 2 ^ 32 < 2 ^ 20) ∧
    gateDrops (notices (.notice 0 0 0 7)) 0 (bhOf fwd0.ncoord) = false ∧ gateDrops (notices (.noticeAck 0 7 0)) 0 0 = false := by decide +kernel
/-- A credit, a notice and an acknowledgement from device 1, which the gate of bulkhead 0 holds dead. -/
theorem test_wit_dropped : let dead := fun (f : Flight) (c : Conn) =>
      { credits [(3, f)] c with bh := [(0, { deadMap := [1] })], clu := [(0, { fwd := [(7, { fwd0 with ncoord := 2 ^ 17 })] })] }
    gateDrops (dead (.credit 0 0) { c0 with target := 128 * 65536 }) (bhOfReac 0) (connBh (dead (.credit 0 0) { c0 with target := 128 * 65536 }) 0 0) = true ∧
    gateDrops (dead (.notice 0 64 0 7) c0) (bhOfReac 0) (bhOf (2 ^ 17)) = true ∧ gateDrops (dead (.noticeAck 0 7 32) c0) (bhOfClu 0) 32 = true := by
  decide +kernel

/-- TranslationsEnd: a walk of a formed activation without extents, of a code page through page tables, pins at their gates with every
answer, fills, and answers of a pager. -/
def walking (f : Flight) (x : Reactor := { re0 with st := .xlate, runTs := none, pend := some { act := act0, pinsOut := 1 } }) : State :=
  { State.reset with reac := [(0, x)], flight := [(3, f)], thr := [(0, { th0 1 2 act0 with mode := .parked 3 })] }
theorem test_wit_walk : (walking (.walk (.dispatch 0) false)).fl? 3 = some (.walk (.dispatch 0) false) ∧
    ((walking (.walk (.dispatch 0) false)).re 0).pend = some { act := act0, pinsOut := 1 } ∧
    ((walking (.walk (.dispatch 0) false)).re 0).st = .xlate ∧ (∀ i, i < 10 → (re0.exts[i]?.getD 0).getLsbD 31 = false) := by decide +kernel
def leaf1 : W128 := 0x4000003F
theorem test_wit_code : let s := tabled (walking (.walk (.code 0 0x3000000000000100) false))
    (walkSeq s 0 false 0x3000000000000100).2 = .leaf leaf1 2 0x114000 ∧ pteR leaf1 = true ∧ (s.th 0).mode = .parked 3 ∧ (s.act 0).pins.contains (leafAddr leaf1) = false ∧
    bhOfPa (leafAddr leaf1) = bhOf 0 ∧ isSp (leafAddr leaf1) = false ∧
    tenantOk (walkSeq s 0 false 0x3000000000000100).1 leaf1 = true ∧ pinsOf s (leafAddr leaf1) ≠ 255 := by decide +kernel
/-- A leaf of bulkhead 1, and its gate when bulkhead 1 is of the partition, of another, in reset, and full of pins. -/
def leafB : W128 := BitVec.ofNat 128 (2 ^ 37 + 0x4000003F)
def pinning (b1 : Bulkhead) (ans : Option Nat) : State :=
  { walking (.pin (.dispatch 0) leafB 2 0x3000000000000000 0 ans) with bh := [(0, { bhpart := 2 ^ 63 }), (1, b1)] }
def gateOf (s : State) : Agent := { unit := 0, bh := 0, part := s.partOf 0, priv := false, path := 4 }
theorem test_wit_pin : pinAnswer (pinning { bhpart := 2 ^ 63 } none) (gateOf (pinning { bhpart := 2 ^ 63 } none)) leafB 0x3000000000000000 = 0 ∧
    pinAnswer (pinning { bhpart := 2 ^ 63 + 2 ^ 48 } none) (gateOf (pinning { bhpart := 2 ^ 63 + 2 ^ 48 } none)) leafB 0x3000000000000000 ≠ 0 ∧
    pinsOf (pinning { bhpart := 2 ^ 63 } none) (leafAddr leafB) ≠ 255 ∧ isSp (leafAddr leafB) = false ∧
    pinsOf (pinning { bhpart := 2 ^ 63, pinCount := [(0x4000, 255)] } none) (leafAddr leafB) = 255 := by decide +kernel
def filled (n : Nat) : State :=
  { walking (.fill 0 0x3000000000010000 0 1) with core := [(0, { late := (List.range n).map fun i => (i, BitVec.ofNat 128 i) })] }
theorem test_wit_fill : ((filled 0).co 0).late.length < 16 ∧ ((filled 16).co 0).late.length = 16 ∧
    (∀ i, i < 16 → ∃ x ∈ ((filled 16).co 0).late, x.1 = i) := by decide +kernel
def asking (w : WalkFor) : State :=
  { walking (.answer 0 2 false 0) with
    flight := [(3, .answer 0 2 false 0), (2, .walk w true)],
    thr := [(0, { th0 1 2 act0 with mode := .stalled 3 }), (1, { th0 1 2 act0 with mode := .parked 2 })],
    clu := [(0, { reqs := [{ num := 2, va := 0x3000000000010000, kind := 0, posted := true, walk := 2 }] })] }
theorem test_wit_answer : (asking (.dispatch 0)).fl? 3 = some (.answer 0 2 false 0) ∧ ((asking (.dispatch 0)).th 0).mode = .stalled 3 ∧
    ((asking (.dispatch 0)).re 0).core * 4 = 0 ∧ (asking (.dispatch 0)).fl? 2 = some (.walk (.dispatch 0) true) ∧
    (asking (.lateMiss 1 0x3000000000010000 0 0)).fl? 2 = some (.walk (.lateMiss 1 0x3000000000010000 0 0) true) ∧
    ((walking (.answer 0 2 false 0)).cl (cluOf 0)).reqs = [] := by decide +kernel

/-- EntriesAreReturned: an owner of a connection that is dead to the bulkhead of the reactor's new place, and one that lives. -/
theorem test_wit_gone : ownerGone { flying (.heldRead 0) with bh := [(0, { bhpart := 2 ^ 63, deadMap := [1] })] } 0 (128 * 65536) = true ∧
    ownerGone (flying (.heldRead 0)) 0 0 = false := by decide +kernel

/-- ReactorsLive: a trap entry with a backup buddy and one without any; a move; a gang to release; a killed core whose reactor has a
place and one whose reactor has none; and a recorded input that is due, with and without its receiver. -/
def stopped (pairs : Map W64) (rs : Map Reactor := [(0, re0)]) : State :=
  { State.reset with thr := [(4, { th0 1 2 act0 with mode := .frozen })], reac := rs, clu := [(0, { traps := [{ ts := 4 }], pairs := pairs })] }
theorem test_wit_buddies : ((stopped []).cl 0).traps.find? (fun e => e.ts == 4) = some { ts := 4 } ∧ primaryOf (stopped []) 4 = none ∧
    backupOf (stopped []) 4 = none ∧ ((stopped []).act 4).kind = .ordinary := by decide +kernel
def moving : State := { walking (.move 0 1 0 (48, 16)) { re0 with st := .move, runTs := none } with thr := [(0, { th0 1 2 { act0 with reactor := 9 } with mode := .stalled 3 })] }
theorem test_wit_move : mayMove moving 0 1 ∧ (moving.th 0).mode = .stalled 3 := by
  refine ⟨⟨by decide +kernel, by decide +kernel, by decide +kernel, by decide +kernel, by decide +kernel, by decide +kernel, 1,
    by decide +kernel⟩, by decide +kernel⟩
def disarms : State :=
  { State.reset with reac := [(0, { re0 with st := .idle, runTs := none, disarming := true })],
                     part := [(0, { gangs := [gang true [0]] })], flight := [(3, .disarm 0 2 1 none (some 0))] }
theorem test_wit_disarm : gangGoing disarms 0 2 1 = some (gang true [0]) ∧ instanceBusy disarms 0 = false := by decide +kernel
def killed (r : Reactor) : State := { State.reset with reac := [(0, r)], core := [(0, { killed := true })] }
theorem test_wit_killed : ((killed re0).co 0).killed = true ∧ restartCore (killed re0) re0 0 = some 1 ∧
    restartCore (killed { re0 with regions := [(0, 0x5F000, 0x2000)] }) { re0 with regions := [(0, 0x5F000, 0x2000)] } 0 = none ∧
    (killed { re0 with runTs := none }).hasRe 0 = true := by decide +kernel
theorem test_wit_restart : roomAt (killed { re0 with runTs := none }) 0 1 ∧ restartCore (killed { re0 with runTs := none }) { re0 with runTs := none } 0 = some 1 ∧
    (killed { re0 with runTs := none }).reac.filter (fun e => e.2.core == 0) = [(0, { re0 with runTs := none })] := by
  refine ⟨⟨by decide +kernel, 1, by decide +kernel⟩, by decide +kernel, by decide +kernel⟩
def replays (x : Reactor) : State :=
  { State.reset with mem := [(0x0F, 0x28), (0x12, 0x30), (0x13, 8)], reac := [(0, x)], bh := [(0, { bhpart := 2 ^ 63, rpctl := 2 ^ 63 })] }
theorem test_wit_replay : rpMode ((replays re0).bu 0) = 2 ∧
    ((List.range (feedCap (replays re0) 0)).drop ((replays re0).bu 0).feedIdx).find? (fun i => feedKind (feedRec (replays re0) 0 i) == 5) = some 0 ∧
    rb (feedRec (replays re0) 0 0) 0x28 8 / 2 ^ (((replays re0).bu 0).pcfg.toNat % 32) ≤ (replays re0).ticks 0 ∧
    rb (feedRec (replays re0) 0 0) 0x13 1 / 8 % 2 = 1 ∧ rb (feedRec (replays re0) 0 0) 0x12 1 % 64 = 0x30 ∧
    hostrxOf (replays re0) (coreOf (rb (feedRec (replays re0) 0 0) 0x0C 4 % 2 ^ 27)) = none ∧
    hostrxOf (replays { re0 with hostrx := true, ingressFree := 1 }) 0 = some 0 ∧
    hostrxOf (replays { re0 with hostrx := true, ingressFree := 0, spares := 0 }) 0 = some 0 := by decide +kernel

/-! #### Controllers, links, ports, management and boot -/

/-- MemoryControllers: a port that reaches bulkhead 0 and holds HSEM and one that does not; a valid and an invalid entry; an entry that
copies, one at its last line, and one that does not; sectors that exist and that do not; and offsets of the host window. -/
def ported (own : BitVec 2) (b : Bulkhead := { bhpart := 2 ^ 63 }) : State :=
  { State.reset with dev := [(0, { done := true, powered := true, owner := own, ports := Vector.replicate 2 { up := true } })], bh := [(0, b)] }
theorem test_wit_ports : reaches (ported 1) 0 0 ∧ holdsHsem (ported 1) 0 ∧ ¬ holdsHsem (ported 2) 0 ∧ holdsHsem (ported 2) 1 := by
  unfold reaches holdsHsem
  decide +kernel
/-- STATE and the two frames of a migration entry of one frame. -/
def mig (st ptr : Nat) : W128 := BitVec.ofNat 128 (st * 2 ^ 126 + ptr * 2 ^ 99 + 0x20 * 2 ^ 60 + 0x10)
theorem test_wit_mig : migValid (ported 1) 0 0 (mig 1 0) = true ∧ migValid (ported 1) 0 0 (mig 3 0) = false ∧ migState (mig 1 1023) = 1 ∧
    migPtr (mig 1 1023) < migLines (mig 1 1023) ∧ migPtr (mig 1 0) + 1 < migLines (mig 1 0) ∧ migState (mig 2 0) ≠ 1 := by decide +kernel
theorem test_wit_sectors : paOk (64 * (2 ^ 36 / 64 - 1)) = false ∧ paOk (64 * 5) = true ∧ isSp (spAddr 0 0) = true ∧ paOk (2 ^ 16) = true ∧
    hostPa (ported 1) 0 0 8 = some 0 ∧ hostPa (ported 1) 0 (2 ^ 60) 8 = none := by decide +kernel

/-- LinksCarryFlits: a link whose ends are up with keys in both slots; the flit that its peer seals opens; one with a false CRC does not. -/
def keyed : Link := { up := 2, lanes := 0xFF, txKey := #v[some 0, some 1], rxKey := #v[some 0, some 1], txGen := 2, rxGen := 2 }
def linked (l : Link := keyed) : State := { State.reset with link := [(0, l), (32768, l)] }
def sealed0 : Flit :=
  let hdr := mkHdr 1 0
  let b := gcmSeal 0 (nonceOf 32768 0) hdr 0
  { hdr := hdr, body := b.1, tag := b.2, crc := Flit.crcOf hdr b.1 b.2 }
theorem test_wit_opens : arrives (linked) 0 sealed0 0 ∧ (linked.li 0).opens 0 0 sealed0 = some 0 ∧ hdrSeq sealed0.hdr = (linked.li 0).rxSeq + 1 := by
  refine ⟨by unfold arrives canArrive fabricEnd; exact ⟨by decide, by decide, .inl (by simp only [sealed0]), by decide⟩, ?_, by decide⟩
  have e : peerEnd 0 = 32768 := by decide
  simp [Link.opens, sealed0, gcmSeal, gcmOpen, linked, State.li, Map.get, keyed, hdrKs, mkHdr, e]
theorem test_wit_shut (c : W64) (h : c ≠ Flit.crcOf 0 0 0) : (linked.li 0).opens 0 0 { hdr := 0, body := 0, tag := 0, crc := c } = none := if_pos h
theorem test_wit_crc : ∃ c : W64, c ≠ Flit.crcOf 0 0 0 := ⟨~~~(Flit.crcOf 0 0 0), by
  generalize Flit.crcOf 0 0 0 = x
  intro h
  have := congrArg (fun v : W64 => v.getLsbD 0) h
  simp at this⟩
theorem test_wit_links : (linked.li 0).tx < 2 ^ 40 - 2 ^ 24 ∧ ((linked { keyed with txCtr := #v[2 ^ 40 - 2 ^ 24, 0] }).li 0).tx = 2 ^ 40 - 2 ^ 24 := by
  decide +kernel
/-- A full retry buffer, a slot that both ends of its direction have emptied, and a link that is to train after a reset. -/
theorem test_wit_retry : 256 ≤ (List.replicate 256 (sealed0, ({ hdr := 0, body := 0 } : Plain))).length ∧
    ((linked { keyed with rxKey := #v[some 0, none] }).li (peer 0)).rxKey[(!keyed.ks).toNat]? = some none ∧
    ((linked { keyed with starts := true }).li 0).starts = true ∧ keyed.waitSeq = none ∧ keyed.rxCtr[0]? = some 0 := by decide +kernel
theorem test_wit_slots : ((linked { keyed with txKey := #v[some 0, none] }).li 0).txKey[(!keyed.ks).toNat]? = some none ∧
    ((linked).li 0).txKey[(!keyed.ks).toNat]? = some (some 1) ∧ ((linked { keyed with up := 1 }).li 0).up = 1 ∧
    (linked.li (peer 0)).backlog = [] ∧ 0 < ([(sealed0, ({ hdr := 0, body := 0 } : Plain))].length) := by decide +kernel

/-- Flits that a false CRC makes known by their place: a sequenced one, an unsequenced one, and one that a lane's failure has cut. -/
def spoilt : Flit := { sealed0 with crc := ~~~sealed0.crc }
def sent (h : W64) (cut : Nat) : State :=
  { State.reset with link := [(0, keyed), (32768, { keyed with out := [{ hdr := h, body := 0, tag := 0, crc := 0 }], cut := cut })] }
theorem test_wit_places : canArrive (sent (mkHdr 5 0) 0) 0 ∧ sequenced (sentHdr (sent (mkHdr 5 0) 0) 0 spoilt) = false ∧
    sequenced (sentHdr (sent (mkHdr 1 0) 0) 0 spoilt) = true ∧ ((sent (mkHdr 5 0) 0).li (peer 0)).cut = 0 ∧
    ((sent (mkHdr 5 0) 1).li (peer 0)).cut = 1 ∧ ((sent (mkHdr 5 0) 0).li 0).unseqFails < 15 ∧ sequenced (mkHdr 5 0) = false := by
  unfold canArrive fabricEnd
  decide +kernel
theorem test_wit_false_crc (f : Flit) : ({ f with crc := ~~~f.crc } : Flit).crc ≠ f.crc := by
  intro h
  have := congrArg (fun v : W64 => v.getLsbD 0) h
  simp at this
/-- A full-width link uses each lane, and one of half width the lower four; and ends of a failed switch and of one that works. -/
theorem test_wit_used_lanes : (usedLanes 0xFF 0).testBit 7 = true ∧ (usedLanes 0xFF 1).testBit 7 = false ∧ (usedLanes 0xFF 1).testBit 3 = true ∧
    endFailed 32768 (linked) = false ∧ endFailed 0 (linked) = false ∧
    endFailed 32768 { linked with sw := [(0, { failed := true })] } = true := by decide +kernel

/-- SwitchesAndHeartbeats: a flit for device 5, and for device 200, of two ages; and one split record of two members. -/
def flitTo (dev age : Nat) : Flit := { hdr := hdrAged (mkHdr 1 dev) age 0, body := 0, tag := 0, crc := 0 }
/-- Leaf 0 of plane 0 with its device port 5 and its up ports 96 and 101, and spine 0 with its port 35, up. -/
def switching : State :=
  { State.reset with link := [(32768 + 5 * 32, keyed), (65536 + 96, keyed), (65536 + 101, keyed), (65536 + 11 * 256 + 35, keyed)] }
theorem test_wit_switch : flitFor (flitTo 5 0) 5 0 ∧ flitFor (flitTo 200 254) 200 254 ∧ (5 : Nat) / 96 = 0 % 17 ∧ empty (switching.swi 0) ∧
    canTake switching 0 5 ∧ canTake switching 0 (96 + 5 % 96) ∧ canTake switching 0 96 ∧ canTake switching 11 (200 / 96 * 16 + 3 % 16) ∧
    (switching.li (switchEnd 0 96)).hold = false := by
  unfold flitFor empty canTake
  decide +kernel
theorem test_wit_beats : ((runs 1 2).swi 0).failed = false ∧ ((runs 1 2).swi 0).downDev.contains 3 = false ∧
    { State.reset with sw := [(0, { downDev := [3] })] }.swi 0 = { downDev := [3] } ∧ 63 < downPorts 10 ∧ 95 < downPorts 0 ∧
    Map.get 0 ((runs 1 2).swi 0).hbLast 3 + 10000 ≤ 10000 ∧ ({ State.reset with sw := [(0, { failed := true })] }.swi 0).failed = true ∧
    (∃ m, m < 16 ∧ (switching.li (switchEnd 0 (96 + m))).up ≠ 0) ∧ (switching.swi 11).failed = false ∧ ((runs 1 2).bu 0).reset = false ∧ (linked.li 0).up = 2 := by
  refine ⟨by decide +kernel, by decide +kernel, by decide +kernel, by decide +kernel, by decide +kernel, by decide +kernel, by decide +kernel,
    ⟨0, by decide +kernel⟩, by decide +kernel⟩
/-- A heartbeat that device 0 seals opens at leaf 0. -/
def beat0 : Flit :=
  let hdr := mkHdr 4 0
  let b := gcmSeal 0 (nonceOf 0 0) hdr 0
  { hdr := hdr, body := b.1, tag := b.2, crc := Flit.crcOf hdr b.1 b.2 }
theorem test_wit_beat : canArrive linked 32768 ∧ (linked.li 0).cut = 0 ∧ hdrType beat0.hdr = 4 ∧ (0 : Nat) < downPorts 0 ∧
    ((linked.li 32768).passes true beat0.hdr).2 = 0 ∧ ((linked.li 32768).passes true beat0.hdr).1.rxKey = keyed.rxKey := by
  unfold canArrive fabricEnd
  decide +kernel
theorem test_wit_beat_opens (l : Link) (h : l.rxKey = keyed.rxKey) : l.opens 32768 0 beat0 = some 0 := by
  have e : peerEnd 32768 = 0 := by decide
  simp [Link.opens, beat0, gcmSeal, gcmOpen, h, keyed, hdrKs, mkHdr, e]

/-- HostPorts: HSEM free and held; a link up and down; messages with each status of the first kind, and one that is queued; arming and
disarming of a partition that the device lacks and of one that it has; and a queue of requests for a report. -/
def mailed (q : Port) (x : Reactor := { re0 with hostrx := true, ingressFree := 1 }) : State :=
  { State.reset with dev := [(0, { done := true, powered := true, ports := Vector.replicate 2 { q with up := true }, attQueue := [0] })],
                     bh := [(0, { bhpart := 2 ^ 63, pcfg := 2 ^ 63 })], reac := [(0, x)] }
theorem test_wit_mail : mailStatus (mailed {}) 0 = 0 ∧ mailStatus (mailed { msg3 := 1 }) 0 = 5 ∧ mailStatus (mailed {} re0) 0 = 1 ∧
    rpMode ((mailed {}).bu 0) = 0 ∧ hostrxOf (mailed {}) 0 = some 0 ∧ ((mailed {}).po 0).mbxBusy = false ∧
    ((mailed {}).de 0).owner = 0 ∧ ((mailed {}).po 1).up = true ∧ ((mailed {}).de 0).attQueue = 0 :: [] := by decide +kernel
def gangs : State := { ported 1 { bhpart := 2 ^ 63, plpool := 0x100001 } with mem := [(0x100100, 1)], reac := [(0, re0)], part := [(0, { gangs := [gang false [0]] })] }
theorem test_wit_arm : bhsOf (ported 1) 0 1 = [] ∧ bhsOf (ported 1) 0 0 = 0 :: [] ∧ recordPa (ported 1) 0 1 = none ∧
    (recordPa gangs 0 1).isSome = true ∧ gangLive gangs 0 2 1 = some (gang false [0]) ∧ (gangs.re 0).disarming = false := by decide +kernel

/-- ManagementWrites: rectangles that hold bulkhead 7 and that do not, of a stopped partition; PCFG with F = 20 and 21, stopped and
running; a reserved bit of a window entry; and a stopped reactor. -/
theorem test_wit_mgmt : (let n := 1 * 2 ^ 46 + 1 * 2 ^ 41
      n / 2 ^ 46 % 4 ≤ 7 % 32 / 6 ∧ 7 % 32 / 6 ≤ n / 2 ^ 46 % 4 + n / 2 ^ 44 % 4 ∧ n / 2 ^ 41 % 8 ≤ 7 % 32 % 6) ∧
    partStopped (ported 1) 0 = true ∧ (ported 1).running 0 = false ∧ (ported 1 { bhpart := 2 ^ 63, pcfg := 2 ^ 63 }).running 0 = true ∧
    (20 : Nat) % 32 ≤ 20 ∧ 20 < (21 : Nat) % 32 ∧ (2 ^ 84 : W128).toNat / 2 ^ 84 ≠ 0 ∧
    (stopped [] [(0, { re0 with st := .stop })]).hasRe 0 = true ∧ ((stopped [] [(0, { re0 with st := .stop })]).co 0).isSealed = false := by
  decide +kernel

/-- ResetsAndBoot: a bulkhead in reset and one that is not, a device that is off, one that boots and one whose firmware trains. -/
theorem test_wit_boot : ((ported 1 { reset := true }).bu 0).reset = true ∧ ((ported 1).bu 0).reset = false ∧ (State.reset.de 1023).powered = false ∧
    ((ported 1).de 0).powered = true ∧ ((ported 1).de 0).code = 0 ∧ ((ported 1).de 0).lead = 0 ∧ ((ported 1).de 0).leadStep < 4 ∧
    ((ported 1 { reset := true }).bu 0).pwrSt ≠ 2 ∧ (115 : Byte).toNat = 115 := by decide +kernel

/-- WordsDecode and StepRunsDecoded: a thread set that fetches `idiv`, whose turn uses the cycle, one whose operand waits for a load, and
one that fetches a word which fails check 1; DecodeEncode: a well-formed instruction. -/
def fetched (w : Nat) : State := (runs 1 2).withFetchWord 32 w
def turnOf0 (s : State) : State := { setIssued 0 false { s with agenda := [] } with cur := 0 }
theorem test_wit_step : (∃ rest, (fetched 0x28818548).agenda = .issue 0 :: rest) ∧ unitOk 0 = true ∧
    coreSets { fetched 0x28818548 with agenda := [] } (coreOf 0) = 0 :: [] ∧ canIssue (fetched 0x28818548) 0 = true ∧
    ((fetched 0x28818548).th 0).repAct = false ∧ ((fetched 0x28818548).th 0).blk = none ∧ ((fetched 0x28818548).act 0).sigMode = 0 := by
  refine ⟨⟨_, rfl⟩, ?_⟩
  decide +kernel
/-- WordsDecode: a thread set that fetches a word of an unassigned opcode. -/
theorem test_wit_fetch : let s := { fetched 0x3FDC with cur := 0 }
    settled s ∧ enterBlock 0 s = s ∧ canIssue (fetched 0x3FDC) 0 = true ∧ atExit s 0 = false ∧ codeHits 0 1 (s.th 0).pc s = s ∧
    (s.th 0).repAct = false ∧
    (match State.codeWords (fetched 0x3FDC) 0 ((fetched 0x3FDC).th 0).pc with
      | .ok ws => decodeWords ws == some (.reserved 1)
      | .error _ => false) = true := by
  unfold settled
  decide +kernel
/-- StepsGoOn and MemoryFormIsKept. -/
theorem test_wit_known : Safety.knownUnits (fetched 0x1C) ∧ Safety.asksForUnits (fetched 0x1C) ∧ Safety.memOk (fetched 0x1C) ∧
    ∃ t, step (fetched 0x1C) = .next t := by
  refine ⟨?_, ?_, by unfold Safety.memOk; decide +kernel, _, rfl⟩
  · intro e he
    have : (fetched 0x1C).thr.all (fun e => unitOk e.1) = true := by decide +kernel
    exact List.all_eq_true.mp this e he
  · intro u hu
    have : (fetched 0x1C).agenda = [.issue 0] := by decide +kernel
    simp [this] at hu
    subst hu
    decide
/-! #### Hypotheses of one statement beside those above -/

/-- Nothing of the reactor is unperformed, nothing keeps a release or an arming waiting, and no bit has flipped. -/
theorem test_wit_still : reactorOut ready 0 = false ∧ reactorOut trapping 0 = false ∧ releaseWaits disarms 0 = false ∧
    armWaits (ported 1) 0 0 = false ∧ armWaits gangs 0 0x100100 = false ∧ moving.flips = [] ∧ act0.kind = .ordinary ∧
    act0.extents.all (fun e => !e.getLsbD 19) = true ∧ m0.after = none ∧ c0.granted = false := by decide +kernel
theorem test_wit_lives : re0.stranded = false ∧ re0.disarming = false ∧ re0.started = true ∧
    ((arriving 6).bu (bhOfReac 0)).retired = false ∧ (Owner.conn 0 0).sender = some 0 ∧
    (asking (.dispatch 0)).loading 0 = false ∧ (asking (.dispatch 0)).owed 0 4 = false ∧
    ((walking (.walk (.dispatch 0) false)).flight.all fun e => match e.2 with
      | .heldRead _ => false
      | _ => true) = true := by decide +kernel
/-- MemoryControllers: a sector of a migration table, and damage that spoils every element of it. -/
theorem test_wit_migtable : let k := migTableAt 0 / 64
    isSp (64 * k) = false ∧ bhOfPa (64 * k) = 0 ∧ migTableAt 0 ≤ 64 * k ∧ 64 * k < migTableAt 0 + 1024 ∧ paOk (hbmAddr 0 0) = true ∧
    (judge 0 false (0x101010101 * (1 + 2 ^ 256)) 0).sev.all (fun x => decide (3 ≤ x)) = true := by decide +kernel
/-- MemoryControllers: an elided sector, and damage of its metadata that cannot be corrected. -/
theorem test_wit_elided : { State.reset with elided := [5] }.elided.contains 5 = true ∧ State.reset.elided.contains 5 = false ∧
    (judge 0 false 0x101010101 0).sev.any (3 ≤ ·) = true := by decide +kernel
/-- MemoryControllers: a bulkhead that serves hosts, and one in reset. -/
theorem test_wit_hostshut : hostShut (ported 1) 0 = false ∧ hostShut (ported 1 { reset := true }) 0 = true ∧
    hostPa (ported 1 { reset := true }) 0 0 8 = some 0 := by decide +kernel
/-- A stop asked for of a reactor that is held adds nothing (R401). -/
theorem test_stop_held : ((wantStop 0 1 { State.reset with reac := [(0, { re0 with st := .stop })] }).re 0).stopWant = false ∧
    ((wantStop 0 1 { State.reset with reac := [(0, re0)] }).re 0).stopWant = true := by decide +kernel
/-- SwitchesAndHeartbeats: a performed store and an answered famo whose target lies in device 1. -/
def away : Piece := { far1 with pa := 32 * 2 ^ 37 + 0x10000040 }
theorem test_wit_away : devOf (store8 true .ok).ts = devOfBh 0 ∧ bhOfPa away.pa = 1 * 32 + 0 % 32 ∧ (1 : Nat) ≠ devOfBh 0 ∧
    (flying (.store { store8 true .ok with p := away })).flight = [(3, .store { store8 true .ok with p := away })] ∧
    devOfBh ((request (.famo {})).via.getD (bhOf 0)) = devOfBh 0 ∧
    (weevil (.famo {}) (some { v := 7 }) away).flight = [(3, .weevil (request (.famo {}) (some { v := 7 }) away))] ∧
    ((flying (.heldRead 0)).bu 0).deadMap.contains 1 = false := by decide +kernel
/-- StepRunsDecoded: no block of the signature checker ends here, no watchpoint sees the fetch, the instruction retires, and nothing
waits; and behind a load of its operand it waits and uses no cycle. -/
def behind (w : Nat) : State := { fetched w with flight := [(3, .load 0 3 { start := 0, width := 512, lanes := [] } none false false {} {} none)] }
def fetchesAs (s : State) (test : List W32 → Instr → Raw → Bool) : Bool :=
  match s.codeWords 0 (s.th 0).pc with
  | .ok ws => match decodeWords ws, Raw.ofWords ws with
    | some (.ok i), some x => test ws i x
    | _, _ => false
  | .error _ => false
theorem test_wit_free : fetchesAs (turnOf0 (fetched 0x28818548)) (fun ws i x => let s := turnOf0 (fetched 0x28818548)
    i == .idiv ⟨false, 2⟩ ⟨10, 8, 6, none⟩ && !atExit s 0 && (heldBy s 0 x).isNone && decide (codeHits 0 ws.length (s.th 0).pc s = s) &&
      (let t := stopAfter 0 x (s.th 0) (after 0 ws x x s (nx (exec i s)))
       used 0 s t && used 0 s (cycle 0 t))) = true := by decide +kernel
theorem test_wit_waits : fetchesAs (turnOf0 (behind 0x2881855C)) (fun ws _ x => let s := turnOf0 (behind 0x2881855C)
    heldBy s 0 x == some 8 && !used 0 s (stall 0 8 1 s) && decide (codeHits 0 ws.length (s.th 0).pc s = s) &&
      (match coreTurn 0 [] (stall 0 8 1 s) with
        | .next _ => true
        | _ => false)) = true := by decide +kernel

/-- R356: a thread set that waits takes no issue slot from another: thread set 1 issues, and is the last that has. -/
def twoSets : State := let s := behind 0x2881855C
  { s with thr := [(0, s.th 0), (1, s.th 0)] }
theorem test_turn : let t := (match step twoSets with
      | .next t => t
      | _ => twoSets)
    (t.th 0).pc = (twoSets.th 0).pc ∧ (t.th 1).pc = (twoSets.th 1).pc + 4 ∧ (t.co 0).lastTs = 1 ∧
    (Map.get? (t.co 0).ctrs 8).map (·.count) = some 1 := by decide +kernel

/-! ### Well-formedness: for each decode check of Table 08-14 a term that fails it -/

theorem test_ill_formed_1_2 : decodeWords [0x3FDC] = some (.reserved 1) ∧ decodeWords [0x5E, 0, 0] = some (.reserved 2) ∧
    decodeWords [0x0000015D, 0, 0] = some (.reserved 2) := by decide +kernel
theorem test_ill_formed_3 : (Instr.iaddExt G7 { xa with c := Z, var := 2 }).wellFormed = false ∧
    (Instr.iaddExt G7 { xa with c := Z, var := 2 }).toRaw.map (·.failedCheck) = some (some 3) := by decide +kernel
theorem test_ill_formed_4 : (Instr.iaddExt G7 { xa with c := Z, ty := 0xF }).toRaw.map (·.failedCheck) = some (some 4) := by decide +kernel
theorem test_ill_formed_5 : (Instr.iaddExt G7 { xa with c := Z, d := S 15 497 }).toRaw.map (·.failedCheck) = some (some 5) ∧
    (Instr.iaddExt G7 { xa with c := Z, d := S 15 496 }).toRaw.map (·.failedCheck) = some none := by decide +kernel
theorem test_ill_formed_6 : (Instr.iaddExt G7 xa).toRaw.map (·.failedCheck) = some (some 6) ∧
    (Instr.ld G7 { xm with scope := 6 }).toRaw.map (·.failedCheck) = some (some 6) := by decide +kernel
/-- Check 7 judges a staggered operand at each pass, in place of check 5 (R164). -/
theorem test_ill_formed_7 : (Instr.iaddExt G7 { xa with c := Z, d := ⟨0, true, 15, 497⟩ }).toRaw.map (·.failedCheckAt true) = some none := by
  decide +kernel

/-! ### Worked examples of the spec -/

/-- Chapter 10: 0xF7 + 0xF7 in two slices, one slice up: x3 ends as 0x0EE7. -/
theorem test_overlap : let s := { runs 1 2 with thr := [(0, { th0 1 2 act0 with r := { scalar := 0xF7 <<< 192 } })] }
    readSlices (nx (exec (.iaddExt G7 { xa with c := Z, d := S 1 49, a := S 1 48, b := S 1 48 }) s)).me.r.scalar ⟨48, 16⟩ = 0xEE7 := by
  decide +kernel
/-- Chapter 2: thread set 17.5.2.3.9.1 converts private address 0x120 to both of its other forms. -/
theorem test_cvta : let u := 17 * 2 ^ 17 + 5 * 2 ^ 12 + 2 * 2 ^ 10 + 3 * 2 ^ 6 + 9 * 2 ^ 2 + 1
    convert u 0x120 false = some 0x2000000001CE4120 ∧ convert u 0x120 true = some 0xE0000044B1CE4120 ∧
    spAddr (coreOf u) 0x64120 = 0x44B011CE4120 := by decide +kernel
/-- Chapter 4: the indices of 0x1234_5678_9ABC, and the frame of device 17, bulkhead 5, offset 0x2_3456_0000. -/
theorem test_indices : lvlIndex 3 0x5000123456789ABC = 36 ∧ lvlIndex 2 0x5000123456789ABC = 209 ∧ lvlIndex 1 0x5000123456789ABC = 179 ∧
    lvlIndex 0 0x5000123456789ABC = 24 ∧ hbmAddr (17 * 32 + 5) 0x234560000 = 0x44A234560000 := by decide +kernel
/-- Table 13-8: conversions to E4M3, BF16, FP16 and an integer, with their flags. -/
theorem test_convert : convertV 4 32 5 8 0 true false 0x3F880000 = (0x38, { nx := true }) ∧
    convertV 4 32 5 8 0 true false 0x43FA0000 = (0x7E, { of := true, nx := true }) ∧
    convertV 4 32 5 8 0 false true 0x43FA0000 = (0x7F, { of := true, nx := true }) ∧
    convertV 4 32 3 16 0 false false 0x3EAAAAAB = (0x3EAB, { nx := true }) ∧ convertV 4 32 3 16 1 false false 0x3EAAAAAB = (0x3EAA, { nx := true }) := by
  decide +kernel
theorem test_convert_fp16 : convertV 4 32 2 16 0 false false 0x35C00000 = (0x0018, {}) ∧
    convertV 4 32 2 16 0 false false 0x33000000 = (0, { uf := true, nx := true }) ∧
    convertV 4 32 2 16 0 false false 0x477FF000 = (0x7C00, { of := true, nx := true }) ∧
    convertV 4 32 2 16 1 false false 0x477FF000 = (0x7BFF, { nx := true }) ∧
    convertV 4 32 2 16 1 false false 0x47800000 = (0x7BFF, { of := true, nx := true }) ∧
    convertV 4 32 2 16 0 false false 0x7F800001 = (0x7E00, { nv := true }) := by decide +kernel
theorem test_convert_int : convertV 4 32 0 8 0 false false 0xC0200000 = (0xFE, { nx := true }) ∧
    convertV 4 32 0 8 0 false false 0x43960000 = (0x7F, { nv := true }) ∧ convertV 1 32 4 32 0 false false 16777217 = (0x4B800000, { nx := true }) ∧
    convertV 6 8 4 32 0 false false 1 = (0x37800000, {}) := by decide +kernel
/-- R261: the tree of vfred over 2,048 and seven ones is 2,054, with NX. -/
theorem test_vfred : tree (fun (a b : FRes) => let z := faddV fp16 0 (fp16.decode a.1) (fp16.decode b.1); (z.1, (a.2.or b.2).or z.2))
    ((0x6800 :: List.replicate 7 0x3C00).map fun v => some (v, {})) = some (0x6803, { nx := true }) := by decide +kernel
/-- R283: the codebook cbx of Table 13-4 on 1.25, −0.25, 7.0, 20.0 with b = 0x81, and 3.0. -/
def cbx : Nat := leNat ([0x0000, 0x3F00, 0x3F80, 0x3FC0, 0x4000, 0x4040, 0x4080, 0x40C0, 0x4100, 0xBF00, 0xBF80, 0xBFC0, 0xC000, 0xC040, 0xC080,
  0xC0C0].flatMap (leBytes 2))
theorem test_vqcb : (quantise cbx (fp32.decode 0x3FA00000) 0x7F).1 = 2 ∧ (quantise cbx (fp32.decode 0xBE800000) 0x7F).1 = 0 ∧
    (quantise cbx (fp32.decode 0x40E00000) 0x7F).1 = 7 ∧ (quantise cbx (fp32.decode 0x41A00000) 0x81).1 = 6 ∧
    quantise cbx (fp32.decode 0x40400000) 0x7F = (5, {}) := by decide +kernel
/-- R302: the product 2^−24 beside 2^20 and −2^20 is cut off: the sum is +0 with NX. -/
def fpRow (l : List Nat) : Row := { i := 0, bad := false, hurt := [], vals := l.map fp16.decode, scales := [], bytes := [] }
theorem test_mma_block : mmaElem false false 3 (fpRow [0x6400, 0xE400, 0x0C00]) (fpRow [0x6400, 0x6400, 0x0C00]) 0 = (0, { nx := true }) := by
  decide +kernel
/-- R266: vsra by 2 of 5, 6, −2, −6 and −7 in its first five lanes. -/
theorem test_vsra : let v := leNat ([5, 6, 0xFE, 0xFA, 0xF9].flatMap fun b => leBytes 128 b)
    let s := { runs 1 2 with thr := [(0, { th0 1 2 act0 with r := { vec := BitVec.ofNat 8192 v } })] }
    (List.range 5).map (fun l => readLane (nx (exec (.vsraExt G7 { xv with ty := 0, c := Z, d := V 1 16, a := V 1 0, b := Z, lit := some 2 }) s)).me.r.vec l
      ⟨16, 2⟩) = [1, 2, 0, 0xFF, 0xFE] := by decide +kernel
/-- Table 08-16: the vadd line with a rotated source under k3 = 0x0F: lanes 0 to 3 get 100 + 10 + (L + 1), the others stay. -/
theorem test_rotated : let v := leNat ((List.range 8).flatMap fun l => leBytes 128 ((10 + l) * 2 ^ 64 + 100 * 2 ^ 96))
    let s := { runs 1 2 with thr := [(0, { th0 1 2 act0 with r := { vec := BitVec.ofNat 8192 v, masks := 0xFF0000000F000000 } })] }
    decodeWords [0x4E085C0E, 0x4E184E10, 0x00590000] = some (.ok (.vaddExt ⟨false, 3⟩ ⟨1, V 7 8, V 7 16, V 7 24, 0, 0x059, Z, none⟩)) ∧
    (List.range 8).map (fun l => readLane (nx (exec (.vaddExt ⟨false, 3⟩ ⟨1, V 7 8, V 7 16, V 7 24, 0, 0x059, Z, none⟩) s)).me.r.vec l ⟨8, 8⟩) =
      [111, 112, 113, 114, 0, 0, 0, 0] := by decide +kernel
/-- Table 08-15: the signed compare of x4.lo with x5.lo, to g1 and its complement to g2. -/
theorem test_icmp : let s := { runs 1 2 with thr := [(0, { th0 1 2 act0 with r := (regsOf 1 2).setG 1 false })] }
    let t := nx (exec (.icmpLt G7 ⟨10, 8, 2, 1, none⟩) s)
    t.me.r.g 1 = true ∧ t.me.r.g 2 = false ∧ t.me.pc = s.me.pc + 4 := by decide +kernel
/-- Reset: nothing happens but time before a program is loaded (log 11). -/
theorem test_reset_steps : ∃ t, step State.reset = .next t ∧ t.mem = [] ∧ t.thr = [] := ⟨_, rfl, by decide +kernel, by decide +kernel⟩

/-! ### Words of every instruction, written out from the diagrams of the spec -/

/-- Base forms, from the diagrams of Tables 08-2 to 08-4 and the opcode map (R162). -/
theorem test_decode_base_1 :
    decodeWords [0x0000001C] = some (.ok (.nop G7)) ∧
    decodeWords [0xFFFF405C] = some (.ok (.br G7 0x3FFFD)) ∧
    decodeWords [0x00A0009C] = some (.ok (.brx G7 10)) ∧
    decodeWords [0xFFFF40DC] = some (.ok (.call G7 0x3FFFD)) ∧
    decodeWords [0x00AF811C] = some (.ok (.callx G7 ⟨10, 62⟩)) ∧
    decodeWords [0x00A0015C] = some (.ok (.ret G7 10)) ∧
    decodeWords [0x000001DC] = some (.ok (.done G7)) ∧
    decodeWords [0x0081841D, 0x12345678, 0x9ABCDEF0] = some (.ok (.iadd G7 ⟨0, 8, 6, some 0x9ABCDEF012345678⟩)) ∧
    decodeWords [0x2C81845C] = some (.ok (.isub G7 ⟨11, 8, 6, none⟩)) ∧
    decodeWords [0x0081849D, 0x12345678, 0x9ABCDEF0] = some (.ok (.imul G7 ⟨0, 8, 6, some 0x9ABCDEF012345678⟩)) ∧
    decodeWords [0x2C8184DC] = some (.ok (.imulh G7 ⟨11, 8, 6, none⟩)) ∧
    decodeWords [0x0081851D, 0x12345678, 0x9ABCDEF0] = some (.ok (.imulhu G7 ⟨0, 8, 6, some 0x9ABCDEF012345678⟩)) ∧
    decodeWords [0x2C81855C] = some (.ok (.idiv G7 ⟨11, 8, 6, none⟩)) ∧
    decodeWords [0x0081859D, 0x12345678, 0x9ABCDEF0] = some (.ok (.idivu G7 ⟨0, 8, 6, some 0x9ABCDEF012345678⟩)) ∧
    decodeWords [0x2C8185DC] = some (.ok (.irem G7 ⟨11, 8, 6, none⟩)) ∧
    decodeWords [0x0081861D, 0x12345678, 0x9ABCDEF0] = some (.ok (.iremu G7 ⟨0, 8, 6, some 0x9ABCDEF012345678⟩)) ∧
    decodeWords [0x2C81865C] = some (.ok (.imin G7 ⟨11, 8, 6, none⟩)) ∧
    decodeWords [0x0081869D, 0x12345678, 0x9ABCDEF0] = some (.ok (.imax G7 ⟨0, 8, 6, some 0x9ABCDEF012345678⟩)) ∧
    decodeWords [0x2C8186DC] = some (.ok (.iminu G7 ⟨11, 8, 6, none⟩)) := by decide +kernel

/-- Base forms, from the diagrams of Tables 08-2 to 08-4 and the opcode map (R162). -/
theorem test_decode_base_2 :
    decodeWords [0x0081871D, 0x12345678, 0x9ABCDEF0] = some (.ok (.imaxu G7 ⟨0, 8, 6, some 0x9ABCDEF012345678⟩)) ∧
    decodeWords [0x0081875C] = some (.ok (.iabs G7 ⟨8, 6⟩)) ∧
    decodeWords [0x0081879C] = some (.ok (.ineg G7 ⟨8, 6⟩)) ∧
    decodeWords [0x2C8187DC] = some (.ok (.and G7 ⟨11, 8, 6, none⟩)) ∧
    decodeWords [0x0081881D, 0x12345678, 0x9ABCDEF0] = some (.ok (.or G7 ⟨0, 8, 6, some 0x9ABCDEF012345678⟩)) ∧
    decodeWords [0x2C81885C] = some (.ok (.xor G7 ⟨11, 8, 6, none⟩)) ∧
    decodeWords [0x0081889D, 0x12345678, 0x9ABCDEF0] = some (.ok (.andn G7 ⟨0, 8, 6, some 0x9ABCDEF012345678⟩)) ∧
    decodeWords [0x2C8188DC] = some (.ok (.orn G7 ⟨11, 8, 6, none⟩)) ∧
    decodeWords [0x0081891D, 0x12345678, 0x9ABCDEF0] = some (.ok (.shl G7 ⟨0, 8, 6, some 0x9ABCDEF012345678⟩)) ∧
    decodeWords [0x2C81895C] = some (.ok (.shr G7 ⟨11, 8, 6, none⟩)) ∧
    decodeWords [0x0081899D, 0x12345678, 0x9ABCDEF0] = some (.ok (.sar G7 ⟨0, 8, 6, some 0x9ABCDEF012345678⟩)) ∧
    decodeWords [0x2C8189DC] = some (.ok (.rol G7 ⟨11, 8, 6, none⟩)) ∧
    decodeWords [0x00818A1C] = some (.ok (.clz G7 ⟨8, 6⟩)) ∧
    decodeWords [0x00818A5C] = some (.ok (.ctz G7 ⟨8, 6⟩)) ∧
    decodeWords [0x00818A9C] = some (.ok (.popc G7 ⟨8, 6⟩)) ∧
    decodeWords [0x00818BDC] = some (.ok (.mov G7 ⟨8, 6⟩)) ∧
    decodeWords [0xFFC18C1C] = some (.ok (.li G7 ⟨0xFFC, 6⟩)) ∧
    decodeWords [0x2C818C5C] = some (.ok (.lea G7 ⟨11, 8, 6, none⟩)) ∧
    decodeWords [0x2C844CDC] = some (.ok (.icmpEq G7 ⟨11, 8, 2, 1, none⟩)) := by decide +kernel

/-- Base forms, from the diagrams of Tables 08-2 to 08-4 and the opcode map (R162). -/
theorem test_decode_base_3 :
    decodeWords [0x2C844D1C] = some (.ok (.icmpNe G7 ⟨11, 8, 2, 1, none⟩)) ∧
    decodeWords [0x2C844D5C] = some (.ok (.icmpLt G7 ⟨11, 8, 2, 1, none⟩)) ∧
    decodeWords [0x2C844D9C] = some (.ok (.icmpLe G7 ⟨11, 8, 2, 1, none⟩)) ∧
    decodeWords [0x2C844DDC] = some (.ok (.icmpLtu G7 ⟨11, 8, 2, 1, none⟩)) ∧
    decodeWords [0x2C844E1C] = some (.ok (.icmpLeu G7 ⟨11, 8, 2, 1, none⟩)) ∧
    decodeWords [0xFFC18F9C] = some (.ok (.iaddi G7 ⟨0xFFC, 6⟩)) ∧
    decodeWords [0x00819C1D, 0x12345678, 0x9ABCDEF0] = some (.ok (.vadd G7 ⟨0, 8, 6, some 0x9ABCDEF012345678⟩)) ∧
    decodeWords [0x2C819C5C] = some (.ok (.vsub G7 ⟨11, 8, 6, none⟩)) ∧
    decodeWords [0x00819C9D, 0x12345678, 0x9ABCDEF0] = some (.ok (.vmul G7 ⟨0, 8, 6, some 0x9ABCDEF012345678⟩)) ∧
    decodeWords [0x2C819CDC] = some (.ok (.vmulh G7 ⟨11, 8, 6, none⟩)) ∧
    decodeWords [0x00819D1D, 0x12345678, 0x9ABCDEF0] = some (.ok (.vmad G7 ⟨0, 8, 6, some 0x9ABCDEF012345678⟩)) ∧
    decodeWords [0x2C819D5C] = some (.ok (.vmin G7 ⟨11, 8, 6, none⟩)) ∧
    decodeWords [0x00819D9D, 0x12345678, 0x9ABCDEF0] = some (.ok (.vmax G7 ⟨0, 8, 6, some 0x9ABCDEF012345678⟩)) ∧
    decodeWords [0x00819DDC] = some (.ok (.vabs G7 ⟨8, 6⟩)) ∧
    decodeWords [0x00819E1C] = some (.ok (.vneg G7 ⟨8, 6⟩)) ∧
    decodeWords [0x2C819E5C] = some (.ok (.vand G7 ⟨11, 8, 6, none⟩)) ∧
    decodeWords [0x00819E9D, 0x12345678, 0x9ABCDEF0] = some (.ok (.vor G7 ⟨0, 8, 6, some 0x9ABCDEF012345678⟩)) ∧
    decodeWords [0x2C819EDC] = some (.ok (.vxor G7 ⟨11, 8, 6, none⟩)) ∧
    decodeWords [0x00819F1D, 0x12345678, 0x9ABCDEF0] = some (.ok (.vshl G7 ⟨0, 8, 6, some 0x9ABCDEF012345678⟩)) := by decide +kernel

/-- Base forms, from the diagrams of Tables 08-2 to 08-4 and the opcode map (R162). -/
theorem test_decode_base_4 :
    decodeWords [0x2C819F5C] = some (.ok (.vshr G7 ⟨11, 8, 6, none⟩)) ∧
    decodeWords [0x00819F9D, 0x12345678, 0x9ABCDEF0] = some (.ok (.vsar G7 ⟨0, 8, 6, some 0x9ABCDEF012345678⟩)) ∧
    decodeWords [0x2C819FDC] = some (.ok (.vsra G7 ⟨11, 8, 6, none⟩)) ∧
    decodeWords [0x0081A19C] = some (.ok (.vmov G7 ⟨8, 6⟩)) ∧
    decodeWords [0x2C81A25C] = some (.ok (.vperm G7 ⟨11, 8, 6, none⟩)) ∧
    decodeWords [0x0081A41D, 0x12345678, 0x9ABCDEF0] = some (.ok (.vfadd G7 ⟨0, 8, 6, some 0x9ABCDEF012345678⟩)) ∧
    decodeWords [0x2C81A45C] = some (.ok (.vfsub G7 ⟨11, 8, 6, none⟩)) ∧
    decodeWords [0x0081A49D, 0x12345678, 0x9ABCDEF0] = some (.ok (.vfmul G7 ⟨0, 8, 6, some 0x9ABCDEF012345678⟩)) ∧
    decodeWords [0x2C81A4DC] = some (.ok (.vfma G7 ⟨11, 8, 6, none⟩)) ∧
    decodeWords [0x0081A51D, 0x12345678, 0x9ABCDEF0] = some (.ok (.vfmin G7 ⟨0, 8, 6, some 0x9ABCDEF012345678⟩)) ∧
    decodeWords [0x2C81A55C] = some (.ok (.vfmax G7 ⟨11, 8, 6, none⟩)) ∧
    decodeWords [0x0081A59C] = some (.ok (.vfabs G7 ⟨8, 6⟩)) ∧
    decodeWords [0x0081A5DC] = some (.ok (.vfneg G7 ⟨8, 6⟩)) ∧
    decodeWords [0x0081A69C] = some (.ok (.vfrcp G7 ⟨8, 6⟩)) ∧
    decodeWords [0x0081A6DC] = some (.ok (.vfrsq G7 ⟨8, 6⟩)) ∧
    decodeWords [0x0081A71C] = some (.ok (.vfexp2 G7 ⟨8, 6⟩)) ∧
    decodeWords [0x0081A75C] = some (.ok (.vflog2 G7 ⟨8, 6⟩)) := by decide +kernel

/-- Extended forms, Tables 08-5 to 08-7: control, scalar and guard instructions. -/
theorem test_decode_scalar_1 :
    decodeWords [0x0000001E, 0x00000000, 0x00000000] = some (.ok (.nopExt G7 { var := 0, d := Z, a := Z, b := Z, ty := 0, mod := 0, c := Z, lit := none })) ∧
    decodeWords [0x0000009E, 0x00001E40, 0x00000000] = some (.ok (.brxExt G7 { var := 0, d := Z, a := ⟨0, false, 15, 64⟩, b := Z, ty := 0, mod := 0, c := Z, lit := none })) ∧
    decodeWords [0x1E30011E, 0x00001E40, 0x00000000] = some (.ok (.callxExt G7 { var := 0, d := ⟨0, false, 15, 48⟩, a := ⟨0, false, 15, 64⟩, b := Z, ty := 0, mod := 0, c := Z, lit := none })) ∧
    decodeWords [0x0000015E, 0x00001E40, 0x00000000] = some (.ok (.retExt G7 { var := 0, d := Z, a := ⟨0, false, 15, 64⟩, b := Z, ty := 0, mod := 0, c := Z, lit := none })) ∧
    decodeWords [0x0202019F, 0x1E000000, 0x00000000, 0x12345678, 0x9ABCDEF0] = some (.ok (.rep G7 { var := 0, d := ⟨0, false, 1, 2⟩, a := Z, b := ⟨0, false, 15, 0⟩, ty := 0, mod := 0, c := Z, lit := some 0x9ABCDEF012345678 })) ∧
    decodeWords [0x000001DE, 0x00000000, 0x00000000] = some (.ok (.doneExt G7 { var := 0, d := Z, a := Z, b := Z, ty := 0, mod := 0, c := Z, lit := none })) ∧
    decodeWords [0x1E30041F, 0x1E001E40, 0x10000000, 0x12345678, 0x9ABCDEF0] = some (.ok (.iaddExt G7 { var := 0, d := ⟨0, false, 15, 48⟩, a := ⟨0, false, 15, 64⟩, b := ⟨0, false, 15, 0⟩, ty := 1, mod := 0, c := Z, lit := some 0x9ABCDEF012345678 })) ∧
    decodeWords [0x1E30045E, 0x1E501E40, 0x10000000] = some (.ok (.isubExt G7 { var := 0, d := ⟨0, false, 15, 48⟩, a := ⟨0, false, 15, 64⟩, b := ⟨0, false, 15, 80⟩, ty := 1, mod := 0, c := Z, lit := none })) ∧
    decodeWords [0x1E30049E, 0x1E501E40, 0x10000000] = some (.ok (.imulExt G7 { var := 0, d := ⟨0, false, 15, 48⟩, a := ⟨0, false, 15, 64⟩, b := ⟨0, false, 15, 80⟩, ty := 1, mod := 0, c := Z, lit := none })) ∧
    decodeWords [0x1E3004DE, 0x1E501E40, 0x10000000] = some (.ok (.imulhExt G7 { var := 0, d := ⟨0, false, 15, 48⟩, a := ⟨0, false, 15, 64⟩, b := ⟨0, false, 15, 80⟩, ty := 1, mod := 0, c := Z, lit := none })) ∧
    decodeWords [0x1E30051E, 0x1E501E40, 0x10000000] = some (.ok (.imulhuExt G7 { var := 0, d := ⟨0, false, 15, 48⟩, a := ⟨0, false, 15, 64⟩, b := ⟨0, false, 15, 80⟩, ty := 1, mod := 0, c := Z, lit := none })) ∧
    decodeWords [0x1E30055E, 0x1E501E40, 0x10000000] = some (.ok (.idivExt G7 { var := 0, d := ⟨0, false, 15, 48⟩, a := ⟨0, false, 15, 64⟩, b := ⟨0, false, 15, 80⟩, ty := 1, mod := 0, c := Z, lit := none })) ∧
    decodeWords [0x1E30059E, 0x1E501E40, 0x10000000] = some (.ok (.idivuExt G7 { var := 0, d := ⟨0, false, 15, 48⟩, a := ⟨0, false, 15, 64⟩, b := ⟨0, false, 15, 80⟩, ty := 1, mod := 0, c := Z, lit := none })) := by decide +kernel

/-- Extended forms, Tables 08-5 to 08-7: control, scalar and guard instructions. -/
theorem test_decode_scalar_2 :
    decodeWords [0x1E3005DE, 0x1E501E40, 0x10000000] = some (.ok (.iremExt G7 { var := 0, d := ⟨0, false, 15, 48⟩, a := ⟨0, false, 15, 64⟩, b := ⟨0, false, 15, 80⟩, ty := 1, mod := 0, c := Z, lit := none })) ∧
    decodeWords [0x1E30061E, 0x1E501E40, 0x10000000] = some (.ok (.iremuExt G7 { var := 0, d := ⟨0, false, 15, 48⟩, a := ⟨0, false, 15, 64⟩, b := ⟨0, false, 15, 80⟩, ty := 1, mod := 0, c := Z, lit := none })) ∧
    decodeWords [0x1E30065E, 0x1E501E40, 0x10000000] = some (.ok (.iminExt G7 { var := 0, d := ⟨0, false, 15, 48⟩, a := ⟨0, false, 15, 64⟩, b := ⟨0, false, 15, 80⟩, ty := 1, mod := 0, c := Z, lit := none })) ∧
    decodeWords [0x1E30069E, 0x1E501E40, 0x10000000] = some (.ok (.imaxExt G7 { var := 0, d := ⟨0, false, 15, 48⟩, a := ⟨0, false, 15, 64⟩, b := ⟨0, false, 15, 80⟩, ty := 1, mod := 0, c := Z, lit := none })) ∧
    decodeWords [0x1E3006DE, 0x1E501E40, 0x10000000] = some (.ok (.iminuExt G7 { var := 0, d := ⟨0, false, 15, 48⟩, a := ⟨0, false, 15, 64⟩, b := ⟨0, false, 15, 80⟩, ty := 1, mod := 0, c := Z, lit := none })) ∧
    decodeWords [0x1E30071E, 0x1E501E40, 0x10000000] = some (.ok (.imaxuExt G7 { var := 0, d := ⟨0, false, 15, 48⟩, a := ⟨0, false, 15, 64⟩, b := ⟨0, false, 15, 80⟩, ty := 1, mod := 0, c := Z, lit := none })) ∧
    decodeWords [0x1E30075E, 0x00001E40, 0x10000000] = some (.ok (.iabsExt G7 { var := 0, d := ⟨0, false, 15, 48⟩, a := ⟨0, false, 15, 64⟩, b := Z, ty := 1, mod := 0, c := Z, lit := none })) ∧
    decodeWords [0x1E30079E, 0x00001E40, 0x10000000] = some (.ok (.inegExt G7 { var := 0, d := ⟨0, false, 15, 48⟩, a := ⟨0, false, 15, 64⟩, b := Z, ty := 1, mod := 0, c := Z, lit := none })) ∧
    decodeWords [0x1E3007DE, 0x1E501E40, 0x10000000] = some (.ok (.andExt G7 { var := 0, d := ⟨0, false, 15, 48⟩, a := ⟨0, false, 15, 64⟩, b := ⟨0, false, 15, 80⟩, ty := 1, mod := 0, c := Z, lit := none })) ∧
    decodeWords [0x1E30081E, 0x1E501E40, 0x10000000] = some (.ok (.orExt G7 { var := 0, d := ⟨0, false, 15, 48⟩, a := ⟨0, false, 15, 64⟩, b := ⟨0, false, 15, 80⟩, ty := 1, mod := 0, c := Z, lit := none })) ∧
    decodeWords [0x1E30085E, 0x1E501E40, 0x10000000] = some (.ok (.xorExt G7 { var := 0, d := ⟨0, false, 15, 48⟩, a := ⟨0, false, 15, 64⟩, b := ⟨0, false, 15, 80⟩, ty := 1, mod := 0, c := Z, lit := none })) ∧
    decodeWords [0x1E30089E, 0x1E501E40, 0x10000000] = some (.ok (.andnExt G7 { var := 0, d := ⟨0, false, 15, 48⟩, a := ⟨0, false, 15, 64⟩, b := ⟨0, false, 15, 80⟩, ty := 1, mod := 0, c := Z, lit := none })) ∧
    decodeWords [0x1E3008DE, 0x1E501E40, 0x10000000] = some (.ok (.ornExt G7 { var := 0, d := ⟨0, false, 15, 48⟩, a := ⟨0, false, 15, 64⟩, b := ⟨0, false, 15, 80⟩, ty := 1, mod := 0, c := Z, lit := none })) := by decide +kernel

/-- Extended forms, Tables 08-5 to 08-7: control, scalar and guard instructions. -/
theorem test_decode_scalar_3 :
    decodeWords [0x1E30091E, 0x1E501E40, 0x10000000] = some (.ok (.shlExt G7 { var := 0, d := ⟨0, false, 15, 48⟩, a := ⟨0, false, 15, 64⟩, b := ⟨0, false, 15, 80⟩, ty := 1, mod := 0, c := Z, lit := none })) ∧
    decodeWords [0x1E30095E, 0x1E501E40, 0x10000000] = some (.ok (.shrExt G7 { var := 0, d := ⟨0, false, 15, 48⟩, a := ⟨0, false, 15, 64⟩, b := ⟨0, false, 15, 80⟩, ty := 1, mod := 0, c := Z, lit := none })) ∧
    decodeWords [0x1E30099E, 0x1E501E40, 0x10000000] = some (.ok (.sarExt G7 { var := 0, d := ⟨0, false, 15, 48⟩, a := ⟨0, false, 15, 64⟩, b := ⟨0, false, 15, 80⟩, ty := 1, mod := 0, c := Z, lit := none })) ∧
    decodeWords [0x1E3009DE, 0x1E501E40, 0x10000000] = some (.ok (.rolExt G7 { var := 0, d := ⟨0, false, 15, 48⟩, a := ⟨0, false, 15, 64⟩, b := ⟨0, false, 15, 80⟩, ty := 1, mod := 0, c := Z, lit := none })) ∧
    decodeWords [0x1E300A1E, 0x00001E40, 0x10000000] = some (.ok (.clzExt G7 { var := 0, d := ⟨0, false, 15, 48⟩, a := ⟨0, false, 15, 64⟩, b := Z, ty := 1, mod := 0, c := Z, lit := none })) ∧
    decodeWords [0x1E300A5E, 0x00001E40, 0x10000000] = some (.ok (.ctzExt G7 { var := 0, d := ⟨0, false, 15, 48⟩, a := ⟨0, false, 15, 64⟩, b := Z, ty := 1, mod := 0, c := Z, lit := none })) ∧
    decodeWords [0x1E300A9E, 0x00001E40, 0x10000000] = some (.ok (.popcExt G7 { var := 0, d := ⟨0, false, 15, 48⟩, a := ⟨0, false, 15, 64⟩, b := Z, ty := 1, mod := 0, c := Z, lit := none })) ∧
    decodeWords [0x1E300ADE, 0x1E501E40, 0x10000000] = some (.ok (.sext G7 { var := 0, d := ⟨0, false, 15, 48⟩, a := ⟨0, false, 15, 64⟩, b := ⟨0, false, 15, 80⟩, ty := 1, mod := 0, c := Z, lit := none })) ∧
    decodeWords [0x1E300B1E, 0x1E501E40, 0x10000000] = some (.ok (.zext G7 { var := 0, d := ⟨0, false, 15, 48⟩, a := ⟨0, false, 15, 64⟩, b := ⟨0, false, 15, 80⟩, ty := 1, mod := 0, c := Z, lit := none })) ∧
    decodeWords [0x1E300B5E, 0x1E501E40, 0x10001E60] = some (.ok (.bfx G7 { var := 0, d := ⟨0, false, 15, 48⟩, a := ⟨0, false, 15, 64⟩, b := ⟨0, false, 15, 80⟩, ty := 1, mod := 0, c := ⟨0, false, 15, 96⟩, lit := none })) ∧
    decodeWords [0x1E300B9E, 0x1E501E40, 0x10001E60] = some (.ok (.bfi G7 { var := 0, d := ⟨0, false, 15, 48⟩, a := ⟨0, false, 15, 64⟩, b := ⟨0, false, 15, 80⟩, ty := 1, mod := 0, c := ⟨0, false, 15, 96⟩, lit := none })) ∧
    decodeWords [0x1E300BDE, 0x00001E40, 0x10000000] = some (.ok (.movExt G7 { var := 0, d := ⟨0, false, 15, 48⟩, a := ⟨0, false, 15, 64⟩, b := Z, ty := 1, mod := 0, c := Z, lit := none })) ∧
    decodeWords [0x1E300C1E, 0x1E500000, 0x10000000] = some (.ok (.liExt G7 { var := 0, d := ⟨0, false, 15, 48⟩, a := Z, b := ⟨0, false, 15, 80⟩, ty := 1, mod := 0, c := Z, lit := none })) := by decide +kernel

/-- Extended forms, Tables 08-5 to 08-7: control, scalar and guard instructions. -/
theorem test_decode_scalar_4 :
    decodeWords [0x1E300C5E, 0x1E501E40, 0x10000000] = some (.ok (.leaExt G7 { var := 0, d := ⟨0, false, 15, 48⟩, a := ⟨0, false, 15, 64⟩, b := ⟨0, false, 15, 80⟩, ty := 1, mod := 0, c := Z, lit := none })) ∧
    decodeWords [0x1E300C9E, 0x1E501E40, 0x10008003] = some (.ok (.sel G7 { var := 0, d := ⟨0, false, 15, 48⟩, a := ⟨0, false, 15, 64⟩, b := ⟨0, false, 15, 80⟩, ty := 1, mod := 0, c := ⟨2, false, 0, 3⟩, lit := none })) ∧
    decodeWords [0x80110CDE, 0x1E501E40, 0x10000000] = some (.ok (.icmpEqExt G7 { var := 0, d := ⟨2, false, 0, 17⟩, a := ⟨0, false, 15, 64⟩, b := ⟨0, false, 15, 80⟩, ty := 1, mod := 0, c := Z, lit := none })) ∧
    decodeWords [0x80110D1E, 0x1E501E40, 0x10000000] = some (.ok (.icmpNeExt G7 { var := 0, d := ⟨2, false, 0, 17⟩, a := ⟨0, false, 15, 64⟩, b := ⟨0, false, 15, 80⟩, ty := 1, mod := 0, c := Z, lit := none })) ∧
    decodeWords [0x80110D5E, 0x1E501E40, 0x10000000] = some (.ok (.icmpLtExt G7 { var := 0, d := ⟨2, false, 0, 17⟩, a := ⟨0, false, 15, 64⟩, b := ⟨0, false, 15, 80⟩, ty := 1, mod := 0, c := Z, lit := none })) ∧
    decodeWords [0x80110D9E, 0x1E501E40, 0x10000000] = some (.ok (.icmpLeExt G7 { var := 0, d := ⟨2, false, 0, 17⟩, a := ⟨0, false, 15, 64⟩, b := ⟨0, false, 15, 80⟩, ty := 1, mod := 0, c := Z, lit := none })) ∧
    decodeWords [0x80110DDE, 0x1E501E40, 0x10000000] = some (.ok (.icmpLtuExt G7 { var := 0, d := ⟨2, false, 0, 17⟩, a := ⟨0, false, 15, 64⟩, b := ⟨0, false, 15, 80⟩, ty := 1, mod := 0, c := Z, lit := none })) ∧
    decodeWords [0x80110E1E, 0x1E501E40, 0x10000000] = some (.ok (.icmpLeuExt G7 { var := 0, d := ⟨2, false, 0, 17⟩, a := ⟨0, false, 15, 64⟩, b := ⟨0, false, 15, 80⟩, ty := 1, mod := 0, c := Z, lit := none })) ∧
    decodeWords [0x80110E5E, 0x80038003, 0x00000008] = some (.ok (.gop G7 { var := 0, d := ⟨2, false, 0, 17⟩, a := ⟨2, false, 0, 3⟩, b := ⟨2, false, 0, 3⟩, ty := 0, mod := 0, c := ⟨0, false, 0, 8⟩, lit := none })) ∧
    decodeWords [0x80000E9E, 0x00001E40, 0x00000000] = some (.ok (.gmov G7 { var := 0, d := ⟨2, false, 0, 0⟩, a := ⟨0, false, 15, 64⟩, b := Z, ty := 0, mod := 0, c := Z, lit := none })) ∧
    decodeWords [0x46000EDE, 0x1E501E40, 0x10000000] = some (.ok (.smov G7 { var := 0, d := ⟨1, false, 3, 0⟩, a := ⟨0, false, 15, 64⟩, b := ⟨0, false, 15, 80⟩, ty := 1, mod := 0, c := Z, lit := none })) ∧
    decodeWords [0x00000F1F, 0x1E004608, 0x00000000, 0x12345678, 0x9ABCDEF0] = some (.ok (.spill G7 { var := 0, d := Z, a := ⟨1, false, 3, 8⟩, b := ⟨0, false, 15, 0⟩, ty := 0, mod := 0, c := Z, lit := some 0x9ABCDEF012345678 })) ∧
    decodeWords [0x1E300F5E, 0x1E500000, 0x00000000] = some (.ok (.fill G7 { var := 0, d := ⟨0, false, 15, 48⟩, a := Z, b := ⟨0, false, 15, 80⟩, ty := 0, mod := 0, c := Z, lit := none })) := by decide +kernel

/-- Extended forms, Table 08-8: memory, synchronisation and message instructions. -/
theorem test_decode_memory_1 :
    decodeWords [0x1E30101E, 0x00001E40, 0x1008004B] = some (.ok (.ld G7 { var := 0, d := ⟨0, false, 15, 48⟩, a := ⟨0, false, 15, 64⟩, b := Z, ty := 1, off := 8, z := 0, op := 0, scope := 2, ord := 1, ctr := 3, lit := none })) ∧
    decodeWords [0x0000105E, 0x1E501E40, 0x10080053] = some (.ok (.st G7 { var := 0, d := Z, a := ⟨0, false, 15, 64⟩, b := ⟨0, false, 15, 80⟩, ty := 1, off := 8, z := 0, op := 0, scope := 2, ord := 2, ctr := 3, lit := none })) ∧
    decodeWords [0x4600109E, 0x00001E40, 0x1008004B] = some (.ok (.vld G7 { var := 0, d := ⟨1, false, 3, 0⟩, a := ⟨0, false, 15, 64⟩, b := Z, ty := 1, off := 8, z := 0, op := 0, scope := 2, ord := 1, ctr := 3, lit := none })) ∧
    decodeWords [0x000010DE, 0x46101E40, 0x10080053] = some (.ok (.vst G7 { var := 0, d := Z, a := ⟨0, false, 15, 64⟩, b := ⟨1, false, 3, 16⟩, ty := 1, off := 8, z := 0, op := 0, scope := 2, ord := 2, ctr := 3, lit := none })) ∧
    decodeWords [0x1E30111E, 0x1E501E40, 0x1008055B] = some (.ok (.amo G7 { var := 0, d := ⟨0, false, 15, 48⟩, a := ⟨0, false, 15, 64⟩, b := ⟨0, false, 15, 80⟩, ty := 1, off := 8, z := 0, op := 5, scope := 2, ord := 3, ctr := 3, lit := none })) ∧
    decodeWords [0x1E30115E, 0x1E501E40, 0x1008005B] = some (.ok (.acas G7 { var := 0, d := ⟨0, false, 15, 48⟩, a := ⟨0, false, 15, 64⟩, b := ⟨0, false, 15, 80⟩, ty := 1, off := 8, z := 0, op := 0, scope := 2, ord := 3, ctr := 3, lit := none })) ∧
    decodeWords [0x1E30119E, 0x1E501E40, 0x1008054B] = some (.ok (.famo G7 { var := 0, d := ⟨0, false, 15, 48⟩, a := ⟨0, false, 15, 64⟩, b := ⟨0, false, 15, 80⟩, ty := 1, off := 8, z := 0, op := 5, scope := 2, ord := 1, ctr := 3, lit := none })) ∧
    decodeWords [0x1E3011DE, 0x1E501E40, 0x10080053] = some (.ok (.mcas G7 { var := 0, d := ⟨0, false, 15, 48⟩, a := ⟨0, false, 15, 64⟩, b := ⟨0, false, 15, 80⟩, ty := 1, off := 8, z := 0, op := 0, scope := 2, ord := 2, ctr := 3, lit := none })) ∧
    decodeWords [0x0000121E, 0x1E501E40, 0x10080053] = some (.ok (.lenq G7 { var := 0, d := Z, a := ⟨0, false, 15, 64⟩, b := ⟨0, false, 15, 80⟩, ty := 1, off := 8, z := 0, op := 0, scope := 2, ord := 2, ctr := 3, lit := none })) ∧
    decodeWords [0x1E30125E, 0x1E501E40, 0x1008004B] = some (.ok (.pchase G7 { var := 0, d := ⟨0, false, 15, 48⟩, a := ⟨0, false, 15, 64⟩, b := ⟨0, false, 15, 80⟩, ty := 1, off := 8, z := 0, op := 0, scope := 2, ord := 1, ctr := 3, lit := none })) ∧
    decodeWords [0x0000129F, 0x1E000000, 0x00000058, 0x12345678, 0x9ABCDEF0] = some (.ok (.fence G7 { var := 0, d := Z, a := Z, b := ⟨0, false, 15, 0⟩, ty := 0, off := 0, z := 0, op := 0, scope := 2, ord := 3, ctr := 0, lit := some 0x9ABCDEF012345678 })) ∧
    decodeWords [0x000012DE, 0x00000000, 0x00000003] = some (.ok (.wait G7 { var := 0, d := Z, a := Z, b := Z, ty := 0, off := 0, z := 0, op := 0, scope := 0, ord := 0, ctr := 3, lit := none })) := by decide +kernel

/-- Extended forms, Table 08-8: memory, synchronisation and message instructions. -/
theorem test_decode_memory_2 :
    decodeWords [0x0000131E, 0x00000000, 0x00000000] = some (.ok (.commit G7 { var := 0, d := Z, a := Z, b := Z, ty := 0, off := 0, z := 0, op := 0, scope := 0, ord := 0, ctr := 0, lit := none })) ∧
    decodeWords [0x1E30135E, 0x00001E40, 0x00080040] = some (.ok (.cvta G7 { var := 0, d := ⟨0, false, 15, 48⟩, a := ⟨0, false, 15, 64⟩, b := Z, ty := 0, off := 8, z := 0, op := 0, scope := 2, ord := 0, ctr := 0, lit := none })) ∧
    decodeWords [0x0000139F, 0x1E001E40, 0x00080003, 0x12345678, 0x9ABCDEF0] = some (.ok (.pf G7 { var := 0, d := Z, a := ⟨0, false, 15, 64⟩, b := ⟨0, false, 15, 0⟩, ty := 0, off := 8, z := 0, op := 0, scope := 0, ord := 0, ctr := 3, lit := some 0x9ABCDEF012345678 })) ∧
    decodeWords [0x000013DE, 0x1E501E40, 0x00080003] = some (.ok (.cwb G7 { var := 0, d := Z, a := ⟨0, false, 15, 64⟩, b := ⟨0, false, 15, 80⟩, ty := 0, off := 8, z := 0, op := 0, scope := 0, ord := 0, ctr := 3, lit := none })) ∧
    decodeWords [0x0012181E, 0x1E501E40, 0x00000000] = some (.ok (.send G7 { var := 0, d := ⟨0, false, 0, 18⟩, a := ⟨0, false, 15, 64⟩, b := ⟨0, false, 15, 80⟩, ty := 0, off := 0, z := 0, op := 0, scope := 0, ord := 0, ctr := 0, lit := none })) ∧
    decodeWords [0x0000185E, 0x1E501E40, 0x00000000] = some (.ok (.sendr G7 { var := 0, d := Z, a := ⟨0, false, 15, 64⟩, b := ⟨0, false, 15, 80⟩, ty := 0, off := 0, z := 0, op := 0, scope := 0, ord := 0, ctr := 0, lit := none })) ∧
    decodeWords [0x1E30189E, 0x00000000, 0x00000000] = some (.ok (.tnow G7 { var := 0, d := ⟨0, false, 15, 48⟩, a := Z, b := Z, ty := 0, off := 0, z := 0, op := 0, scope := 0, ord := 0, ctr := 0, lit := none })) ∧
    decodeWords [0x1E3018DE, 0x00000000, 0x00000000] = some (.ok (.tcur G7 { var := 0, d := ⟨0, false, 15, 48⟩, a := Z, b := Z, ty := 0, off := 0, z := 0, op := 0, scope := 0, ord := 0, ctr := 0, lit := none })) ∧
    decodeWords [0x1E30191E, 0x00001E40, 0x00000000] = some (.ok (.larm G7 { var := 0, d := ⟨0, false, 15, 48⟩, a := ⟨0, false, 15, 64⟩, b := Z, ty := 0, off := 0, z := 0, op := 0, scope := 0, ord := 0, ctr := 0, lit := none })) ∧
    decodeWords [0x1E30195E, 0x1E501E40, 0x00000000] = some (.ok (.lpatch G7 { var := 0, d := ⟨0, false, 15, 48⟩, a := ⟨0, false, 15, 64⟩, b := ⟨0, false, 15, 80⟩, ty := 0, off := 0, z := 0, op := 0, scope := 0, ord := 0, ctr := 0, lit := none })) ∧
    decodeWords [0x1E30199E, 0x00001E40, 0x00000000] = some (.ok (.lstat G7 { var := 0, d := ⟨0, false, 15, 48⟩, a := ⟨0, false, 15, 64⟩, b := Z, ty := 0, off := 0, z := 0, op := 0, scope := 0, ord := 0, ctr := 0, lit := none })) ∧
    decodeWords [0x000019DF, 0x1E000000, 0x00000000, 0x12345678, 0x9ABCDEF0] = some (.ok (.bar G7 { var := 0, d := Z, a := Z, b := ⟨0, false, 15, 0⟩, ty := 0, off := 0, z := 0, op := 0, scope := 0, ord := 0, ctr := 0, lit := some 0x9ABCDEF012345678 })) := by decide +kernel

/-- Extended forms, Tables 08-5 to 08-7: integer vector instructions. -/
theorem test_decode_vector_1 :
    decodeWords [0x46001C1F, 0x06004608, 0x10000000, 0x12345678, 0x9ABCDEF0] = some (.ok (.vaddExt G7 { var := 0, d := ⟨1, false, 3, 0⟩, a := ⟨1, false, 3, 8⟩, b := ⟨0, false, 3, 0⟩, ty := 1, mod := 0, c := Z, lit := some 0x9ABCDEF012345678 })) ∧
    decodeWords [0x46001C5E, 0x46104608, 0x10000000] = some (.ok (.vsubExt G7 { var := 0, d := ⟨1, false, 3, 0⟩, a := ⟨1, false, 3, 8⟩, b := ⟨1, false, 3, 16⟩, ty := 1, mod := 0, c := Z, lit := none })) ∧
    decodeWords [0x46001C9E, 0x46104608, 0x10000000] = some (.ok (.vmulExt G7 { var := 0, d := ⟨1, false, 3, 0⟩, a := ⟨1, false, 3, 8⟩, b := ⟨1, false, 3, 16⟩, ty := 1, mod := 0, c := Z, lit := none })) ∧
    decodeWords [0x46001CDE, 0x46104608, 0x10000000] = some (.ok (.vmulhExt G7 { var := 0, d := ⟨1, false, 3, 0⟩, a := ⟨1, false, 3, 8⟩, b := ⟨1, false, 3, 16⟩, ty := 1, mod := 0, c := Z, lit := none })) ∧
    decodeWords [0x46001D1E, 0x46104608, 0x10004618] = some (.ok (.vmadExt G7 { var := 0, d := ⟨1, false, 3, 0⟩, a := ⟨1, false, 3, 8⟩, b := ⟨1, false, 3, 16⟩, ty := 1, mod := 0, c := ⟨1, false, 3, 24⟩, lit := none })) ∧
    decodeWords [0x46001D5E, 0x46104608, 0x10000000] = some (.ok (.vminExt G7 { var := 0, d := ⟨1, false, 3, 0⟩, a := ⟨1, false, 3, 8⟩, b := ⟨1, false, 3, 16⟩, ty := 1, mod := 0, c := Z, lit := none })) ∧
    decodeWords [0x46001D9E, 0x46104608, 0x10000000] = some (.ok (.vmaxExt G7 { var := 0, d := ⟨1, false, 3, 0⟩, a := ⟨1, false, 3, 8⟩, b := ⟨1, false, 3, 16⟩, ty := 1, mod := 0, c := Z, lit := none })) ∧
    decodeWords [0x46001DDE, 0x00004608, 0x10000000] = some (.ok (.vabsExt G7 { var := 0, d := ⟨1, false, 3, 0⟩, a := ⟨1, false, 3, 8⟩, b := Z, ty := 1, mod := 0, c := Z, lit := none })) ∧
    decodeWords [0x46001E1E, 0x00004608, 0x10000000] = some (.ok (.vnegExt G7 { var := 0, d := ⟨1, false, 3, 0⟩, a := ⟨1, false, 3, 8⟩, b := Z, ty := 1, mod := 0, c := Z, lit := none })) ∧
    decodeWords [0x46001E5E, 0x46104608, 0x10000000] = some (.ok (.vandExt G7 { var := 0, d := ⟨1, false, 3, 0⟩, a := ⟨1, false, 3, 8⟩, b := ⟨1, false, 3, 16⟩, ty := 1, mod := 0, c := Z, lit := none })) ∧
    decodeWords [0x46001E9E, 0x46104608, 0x10000000] = some (.ok (.vorExt G7 { var := 0, d := ⟨1, false, 3, 0⟩, a := ⟨1, false, 3, 8⟩, b := ⟨1, false, 3, 16⟩, ty := 1, mod := 0, c := Z, lit := none })) ∧
    decodeWords [0x46001EDE, 0x46104608, 0x10000000] = some (.ok (.vxorExt G7 { var := 0, d := ⟨1, false, 3, 0⟩, a := ⟨1, false, 3, 8⟩, b := ⟨1, false, 3, 16⟩, ty := 1, mod := 0, c := Z, lit := none })) ∧
    decodeWords [0x46001F1E, 0x46104608, 0x10000000] = some (.ok (.vshlExt G7 { var := 0, d := ⟨1, false, 3, 0⟩, a := ⟨1, false, 3, 8⟩, b := ⟨1, false, 3, 16⟩, ty := 1, mod := 0, c := Z, lit := none })) ∧
    decodeWords [0x46001F5E, 0x46104608, 0x10000000] = some (.ok (.vshrExt G7 { var := 0, d := ⟨1, false, 3, 0⟩, a := ⟨1, false, 3, 8⟩, b := ⟨1, false, 3, 16⟩, ty := 1, mod := 0, c := Z, lit := none })) := by decide +kernel

/-- Extended forms, Tables 08-5 to 08-7: integer vector instructions. -/
theorem test_decode_vector_2 :
    decodeWords [0x46001F9E, 0x46104608, 0x10000000] = some (.ok (.vsarExt G7 { var := 0, d := ⟨1, false, 3, 0⟩, a := ⟨1, false, 3, 8⟩, b := ⟨1, false, 3, 16⟩, ty := 1, mod := 0, c := Z, lit := none })) ∧
    decodeWords [0x46001FDE, 0x46104608, 0x10000000] = some (.ok (.vsraExt G7 { var := 0, d := ⟨1, false, 3, 0⟩, a := ⟨1, false, 3, 8⟩, b := ⟨1, false, 3, 16⟩, ty := 1, mod := 0, c := Z, lit := none })) ∧
    decodeWords [0x4600201E, 0x00004608, 0x10000000] = some (.ok (.vsat G7 { var := 0, d := ⟨1, false, 3, 0⟩, a := ⟨1, false, 3, 8⟩, b := Z, ty := 1, mod := 0, c := Z, lit := none })) ∧
    decodeWords [0x4600205E, 0x46104608, 0x10004618] = some (.ok (.vclamp G7 { var := 0, d := ⟨1, false, 3, 0⟩, a := ⟨1, false, 3, 8⟩, b := ⟨1, false, 3, 16⟩, ty := 1, mod := 0, c := ⟨1, false, 3, 24⟩, lit := none })) ∧
    decodeWords [0x4600209E, 0x46104608, 0x10000000] = some (.ok (.vsext G7 { var := 0, d := ⟨1, false, 3, 0⟩, a := ⟨1, false, 3, 8⟩, b := ⟨1, false, 3, 16⟩, ty := 1, mod := 0, c := Z, lit := none })) ∧
    decodeWords [0x460020DE, 0x46104608, 0x10000000] = some (.ok (.vzext G7 { var := 0, d := ⟨1, false, 3, 0⟩, a := ⟨1, false, 3, 8⟩, b := ⟨1, false, 3, 16⟩, ty := 1, mod := 0, c := Z, lit := none })) ∧
    decodeWords [0x8011211E, 0x46104608, 0x10002000] = some (.ok (.vcmp G7 { var := 0, d := ⟨2, false, 0, 17⟩, a := ⟨1, false, 3, 8⟩, b := ⟨1, false, 3, 16⟩, ty := 1, mod := 0, c := ⟨0, true, 0, 0⟩, lit := none })) ∧
    decodeWords [0x4600215E, 0x46104608, 0x10008003] = some (.ok (.vsel G7 { var := 0, d := ⟨1, false, 3, 0⟩, a := ⟨1, false, 3, 8⟩, b := ⟨1, false, 3, 16⟩, ty := 1, mod := 0, c := ⟨2, false, 0, 3⟩, lit := none })) ∧
    decodeWords [0x4600619E, 0x00004608, 0x11590000] = some (.ok (.vmovExt G7 { var := 1, d := ⟨1, false, 3, 0⟩, a := ⟨1, false, 3, 8⟩, b := Z, ty := 1, mod := 345, c := Z, lit := none })) ∧
    decodeWords [0x460021DE, 0x1E500000, 0x10000000] = some (.ok (.vbcast G7 { var := 0, d := ⟨1, false, 3, 0⟩, a := Z, b := ⟨0, false, 15, 80⟩, ty := 1, mod := 0, c := Z, lit := none })) ∧
    decodeWords [0x4600221E, 0x46104608, 0x10001E60] = some (.ok (.vext G7 { var := 0, d := ⟨1, false, 3, 0⟩, a := ⟨1, false, 3, 8⟩, b := ⟨1, false, 3, 16⟩, ty := 1, mod := 0, c := ⟨0, false, 15, 96⟩, lit := none })) ∧
    decodeWords [0x4600225E, 0x46104608, 0x10000000] = some (.ok (.vpermExt G7 { var := 0, d := ⟨1, false, 3, 0⟩, a := ⟨1, false, 3, 8⟩, b := ⟨1, false, 3, 16⟩, ty := 1, mod := 0, c := Z, lit := none })) ∧
    decodeWords [0x4E00229E, 0x4E104E08, 0x10000002] = some (.ok (.vdot G7 { var := 0, d := ⟨1, false, 7, 0⟩, a := ⟨1, false, 7, 8⟩, b := ⟨1, false, 7, 16⟩, ty := 1, mod := 0, c := ⟨0, false, 0, 2⟩, lit := none })) ∧
    decodeWords [0x1E3022DE, 0x00004608, 0x10000001] = some (.ok (.vred G7 { var := 0, d := ⟨0, false, 15, 48⟩, a := ⟨1, false, 3, 8⟩, b := Z, ty := 1, mod := 0, c := ⟨0, false, 0, 1⟩, lit := none })) := by decide +kernel

/-- Extended forms, Tables 08-5 to 08-7: floating-point vector instructions. -/
theorem test_decode_float_1 :
    decodeWords [0x4E00241F, 0x0E004E08, 0x40000000, 0x12345678, 0x9ABCDEF0] = some (.ok (.vfaddExt G7 { var := 0, d := ⟨1, false, 7, 0⟩, a := ⟨1, false, 7, 8⟩, b := ⟨0, false, 7, 0⟩, ty := 4, mod := 0, c := Z, lit := some 0x9ABCDEF012345678 })) ∧
    decodeWords [0x4E00245E, 0x4E104E08, 0x40000000] = some (.ok (.vfsubExt G7 { var := 0, d := ⟨1, false, 7, 0⟩, a := ⟨1, false, 7, 8⟩, b := ⟨1, false, 7, 16⟩, ty := 4, mod := 0, c := Z, lit := none })) ∧
    decodeWords [0x4E00249E, 0x4E104E08, 0x40000000] = some (.ok (.vfmulExt G7 { var := 0, d := ⟨1, false, 7, 0⟩, a := ⟨1, false, 7, 8⟩, b := ⟨1, false, 7, 16⟩, ty := 4, mod := 0, c := Z, lit := none })) ∧
    decodeWords [0x4E0024DE, 0x4E104E08, 0x40004E18] = some (.ok (.vfmaExt G7 { var := 0, d := ⟨1, false, 7, 0⟩, a := ⟨1, false, 7, 8⟩, b := ⟨1, false, 7, 16⟩, ty := 4, mod := 0, c := ⟨1, false, 7, 24⟩, lit := none })) ∧
    decodeWords [0x4E00251E, 0x4E104E08, 0x40000000] = some (.ok (.vfminExt G7 { var := 0, d := ⟨1, false, 7, 0⟩, a := ⟨1, false, 7, 8⟩, b := ⟨1, false, 7, 16⟩, ty := 4, mod := 0, c := Z, lit := none })) ∧
    decodeWords [0x4E00255E, 0x4E104E08, 0x40000000] = some (.ok (.vfmaxExt G7 { var := 0, d := ⟨1, false, 7, 0⟩, a := ⟨1, false, 7, 8⟩, b := ⟨1, false, 7, 16⟩, ty := 4, mod := 0, c := Z, lit := none })) ∧
    decodeWords [0x4E00259E, 0x00004E08, 0x40000000] = some (.ok (.vfabsExt G7 { var := 0, d := ⟨1, false, 7, 0⟩, a := ⟨1, false, 7, 8⟩, b := Z, ty := 4, mod := 0, c := Z, lit := none })) ∧
    decodeWords [0x4E0025DE, 0x00004E08, 0x40000000] = some (.ok (.vfnegExt G7 { var := 0, d := ⟨1, false, 7, 0⟩, a := ⟨1, false, 7, 8⟩, b := Z, ty := 4, mod := 0, c := Z, lit := none })) ∧
    decodeWords [0x8011261E, 0x4E104E08, 0x40002000] = some (.ok (.vfcmp G7 { var := 0, d := ⟨2, false, 0, 17⟩, a := ⟨1, false, 7, 8⟩, b := ⟨1, false, 7, 16⟩, ty := 4, mod := 0, c := ⟨0, true, 0, 0⟩, lit := none })) := by decide +kernel

/-- Extended forms, Tables 08-5 to 08-7: floating-point vector instructions. -/
theorem test_decode_float_2 :
    decodeWords [0x4200265E, 0x00004E08, 0x40000005] = some (.ok (.vfcvt G7 { var := 0, d := ⟨1, false, 1, 0⟩, a := ⟨1, false, 7, 8⟩, b := Z, ty := 4, mod := 0, c := ⟨0, false, 0, 5⟩, lit := none })) ∧
    decodeWords [0x4E00269E, 0x00004E08, 0x40000000] = some (.ok (.vfrcpExt G7 { var := 0, d := ⟨1, false, 7, 0⟩, a := ⟨1, false, 7, 8⟩, b := Z, ty := 4, mod := 0, c := Z, lit := none })) ∧
    decodeWords [0x4E0026DE, 0x00004E08, 0x40000000] = some (.ok (.vfrsqExt G7 { var := 0, d := ⟨1, false, 7, 0⟩, a := ⟨1, false, 7, 8⟩, b := Z, ty := 4, mod := 0, c := Z, lit := none })) ∧
    decodeWords [0x4E00271E, 0x00004E08, 0x40000000] = some (.ok (.vfexp2Ext G7 { var := 0, d := ⟨1, false, 7, 0⟩, a := ⟨1, false, 7, 8⟩, b := Z, ty := 4, mod := 0, c := Z, lit := none })) ∧
    decodeWords [0x4E00275E, 0x00004E08, 0x40000000] = some (.ok (.vflog2Ext G7 { var := 0, d := ⟨1, false, 7, 0⟩, a := ⟨1, false, 7, 8⟩, b := Z, ty := 4, mod := 0, c := Z, lit := none })) ∧
    decodeWords [0x4E00279E, 0x00004E08, 0x40000000] = some (.ok (.vfclass G7 { var := 0, d := ⟨1, false, 7, 0⟩, a := ⟨1, false, 7, 8⟩, b := Z, ty := 4, mod := 0, c := Z, lit := none })) ∧
    decodeWords [0x400027DE, 0x42104E08, 0x40000002] = some (.ok (.vqcb G7 { var := 0, d := ⟨1, false, 0, 0⟩, a := ⟨1, false, 7, 8⟩, b := ⟨1, false, 1, 16⟩, ty := 4, mod := 0, c := ⟨0, false, 0, 2⟩, lit := none })) ∧
    decodeWords [0x0230281E, 0x00004E08, 0x40000000] = some (.ok (.vbscale G7 { var := 0, d := ⟨0, false, 1, 48⟩, a := ⟨1, false, 7, 8⟩, b := Z, ty := 4, mod := 0, c := Z, lit := none })) ∧
    decodeWords [0x0E30285E, 0x00004E08, 0x40000002] = some (.ok (.vfred G7 { var := 0, d := ⟨0, false, 7, 48⟩, a := ⟨1, false, 7, 8⟩, b := Z, ty := 4, mod := 0, c := ⟨0, false, 0, 2⟩, lit := none })) := by decide +kernel

/-- Extended forms, Table 08-9: the matrix array and the copy engine. -/
theorem test_decode_matrix_1 :
    decodeWords [0xC0012C1E, 0x00000000, 0x20000200] = some (.ok (.mzero G7 { var := 0, d := ⟨3, false, 0, 1⟩, a := Z, b := Z, mcB := false, mcA := false, masks := true, zf := false, k := 0, ctl := 0, tr := false, ctr := 2, bty := 0, aty := 0, lit := none })) ∧
    decodeWords [0xC0012C5E, 0x1E501E40, 0x50400255] = some (.ok (.mma G7 { var := 0, d := ⟨3, false, 0, 1⟩, a := ⟨0, false, 15, 64⟩, b := ⟨0, false, 15, 80⟩, mcB := false, mcA := true, masks := false, zf := true, k := 64, ctl := 0, tr := false, ctr := 2, bty := 5, aty := 5, lit := none })) ∧
    decodeWords [0xC0012C9E, 0x1E501E40, 0x00000A02] = some (.ok (.mtld G7 { var := 0, d := ⟨3, false, 0, 1⟩, a := ⟨0, false, 15, 64⟩, b := ⟨0, false, 15, 80⟩, mcB := false, mcA := false, masks := false, zf := false, k := 0, ctl := 0, tr := true, ctr := 2, bty := 0, aty := 2, lit := none })) ∧
    decodeWords [0xC0012CDE, 0x1E501E40, 0x00001224] = some (.ok (.mst G7 { var := 0, d := ⟨3, false, 0, 1⟩, a := ⟨0, false, 15, 64⟩, b := ⟨0, false, 15, 80⟩, mcB := false, mcA := false, masks := false, zf := false, k := 0, ctl := 1, tr := false, ctr := 2, bty := 2, aty := 4, lit := none })) ∧
    decodeWords [0xC0012D1E, 0x1E500000, 0x00000000] = some (.ok (.mmask G7 { var := 0, d := ⟨3, false, 0, 1⟩, a := Z, b := ⟨0, false, 15, 80⟩, mcB := false, mcA := false, masks := false, zf := false, k := 0, ctl := 0, tr := false, ctr := 0, bty := 0, aty := 0, lit := none })) ∧
    decodeWords [0x4E002D5E, 0x1E50C001, 0x00000000] = some (.ok (.mrd G7 { var := 0, d := ⟨1, false, 7, 0⟩, a := ⟨3, false, 0, 1⟩, b := ⟨0, false, 15, 80⟩, mcB := false, mcA := false, masks := false, zf := false, k := 0, ctl := 0, tr := false, ctr := 0, bty := 0, aty := 0, lit := none })) ∧
    decodeWords [0xC0012D9E, 0x1E504E08, 0x00000000] = some (.ok (.mwr G7 { var := 0, d := ⟨3, false, 0, 1⟩, a := ⟨1, false, 7, 8⟩, b := ⟨0, false, 15, 80⟩, mcB := false, mcA := false, masks := false, zf := false, k := 0, ctl := 0, tr := false, ctr := 0, bty := 0, aty := 0, lit := none })) ∧
    decodeWords [0x1E302DDF, 0x1E001E40, 0x80008200, 0x12345678, 0x9ABCDEF0] = some (.ok (.cp G7 { var := 0, d := ⟨0, false, 15, 48⟩, a := ⟨0, false, 15, 64⟩, b := ⟨0, false, 15, 0⟩, mcB := true, mcA := false, masks := false, zf := false, k := 0, ctl := 8, tr := false, ctr := 2, bty := 0, aty := 0, lit := some 0x9ABCDEF012345678 })) ∧
    decodeWords [0xC0012E1E, 0x1E501E40, 0x00200265] = some (.ok (.cpm G7 { var := 0, d := ⟨3, false, 0, 1⟩, a := ⟨0, false, 15, 64⟩, b := ⟨0, false, 15, 80⟩, mcB := false, mcA := false, masks := false, zf := false, k := 32, ctl := 0, tr := false, ctr := 2, bty := 6, aty := 5, lit := none })) ∧
    decodeWords [0x00002E5E, 0x1E501E40, 0x00000277] = some (.ok (.mcb G7 { var := 0, d := Z, a := ⟨0, false, 15, 64⟩, b := ⟨0, false, 15, 80⟩, mcB := false, mcA := false, masks := false, zf := false, k := 0, ctl := 0, tr := false, ctr := 2, bty := 7, aty := 7, lit := none })) ∧
    decodeWords [0x1E302E9E, 0x1E50C001, 0x00000000] = some (.ok (.mstat G7 { var := 0, d := ⟨0, false, 15, 48⟩, a := ⟨3, false, 0, 1⟩, b := ⟨0, false, 15, 80⟩, mcB := false, mcA := false, masks := false, zf := false, k := 0, ctl := 0, tr := false, ctr := 0, bty := 0, aty := 0, lit := none })) ∧
    decodeWords [0xC0012EDE, 0x00001E40, 0x00000200] = some (.ok (.msave G7 { var := 0, d := ⟨3, false, 0, 1⟩, a := ⟨0, false, 15, 64⟩, b := Z, mcB := false, mcA := false, masks := false, zf := false, k := 0, ctl := 0, tr := false, ctr := 2, bty := 0, aty := 0, lit := none })) ∧
    decodeWords [0xC0012F1E, 0x00001E40, 0x00000200] = some (.ok (.mrest G7 { var := 0, d := ⟨3, false, 0, 1⟩, a := ⟨0, false, 15, 64⟩, b := Z, mcB := false, mcA := false, masks := false, zf := false, k := 0, ctl := 0, tr := false, ctr := 2, bty := 0, aty := 0, lit := none })) := by decide +kernel

/-- Extended forms, Tables 08-5 to 08-7: system instructions. -/
theorem test_decode_system_1 :
    decodeWords [0x1E30341E, 0x1E500000, 0x00000000] = some (.ok (.rdsys G7 { var := 0, d := ⟨0, false, 15, 48⟩, a := Z, b := ⟨0, false, 15, 80⟩, ty := 0, mod := 0, c := Z, lit := none })) ∧
    decodeWords [0x0000345E, 0x1E501E40, 0x00000000] = some (.ok (.wrsys G7 { var := 0, d := Z, a := ⟨0, false, 15, 64⟩, b := ⟨0, false, 15, 80⟩, ty := 0, mod := 0, c := Z, lit := none })) ∧
    decodeWords [0x1E30349E, 0x00001E40, 0x00000000] = some (.ok (.freeze G7 { var := 0, d := ⟨0, false, 15, 48⟩, a := ⟨0, false, 15, 64⟩, b := Z, ty := 0, mod := 0, c := Z, lit := none })) ∧
    decodeWords [0x1E3034DE, 0x1E501E40, 0x00000000] = some (.ok (.thaw G7 { var := 0, d := ⟨0, false, 15, 48⟩, a := ⟨0, false, 15, 64⟩, b := ⟨0, false, 15, 80⟩, ty := 0, mod := 0, c := Z, lit := none })) ∧
    decodeWords [0x0000351F, 0x1E000000, 0x00000000, 0x12345678, 0x9ABCDEF0] = some (.ok (.trap G7 { var := 0, d := Z, a := Z, b := ⟨0, false, 15, 0⟩, ty := 0, mod := 0, c := Z, lit := some 0x9ABCDEF012345678 })) ∧
    decodeWords [0x1E30355E, 0x1E501E40, 0x00000000] = some (.ok (.migrate G7 { var := 0, d := ⟨0, false, 15, 48⟩, a := ⟨0, false, 15, 64⟩, b := ⟨0, false, 15, 80⟩, ty := 0, mod := 0, c := Z, lit := none })) ∧
    decodeWords [0x1E30359E, 0x1E501E40, 0x00000000] = some (.ok (.seal G7 { var := 0, d := ⟨0, false, 15, 48⟩, a := ⟨0, false, 15, 64⟩, b := ⟨0, false, 15, 80⟩, ty := 0, mod := 0, c := Z, lit := none })) ∧
    decodeWords [0x1E3035DE, 0x1E500000, 0x00000000] = some (.ok (.rdctr G7 { var := 0, d := ⟨0, false, 15, 48⟩, a := Z, b := ⟨0, false, 15, 80⟩, ty := 0, mod := 0, c := Z, lit := none })) ∧
    decodeWords [0x0000361E, 0x1E501E40, 0x00000000] = some (.ok (.wrctr G7 { var := 0, d := Z, a := ⟨0, false, 15, 64⟩, b := ⟨0, false, 15, 80⟩, ty := 0, mod := 0, c := Z, lit := none })) ∧
    decodeWords [0x0000365E, 0x1E501E40, 0x00000000] = some (.ok (.ctrcfg G7 { var := 0, d := Z, a := ⟨0, false, 15, 64⟩, b := ⟨0, false, 15, 80⟩, ty := 0, mod := 0, c := Z, lit := none })) ∧
    decodeWords [0x1E30369E, 0x1E501E40, 0x00000000] = some (.ok (.wpset G7 { var := 0, d := ⟨0, false, 15, 48⟩, a := ⟨0, false, 15, 64⟩, b := ⟨0, false, 15, 80⟩, ty := 0, mod := 0, c := Z, lit := none })) ∧
    decodeWords [0x1E3036DE, 0x1E500000, 0x00000000] = some (.ok (.wpclr G7 { var := 0, d := ⟨0, false, 15, 48⟩, a := Z, b := ⟨0, false, 15, 80⟩, ty := 0, mod := 0, c := Z, lit := none })) ∧
    decodeWords [0x1E30371F, 0x1E000000, 0x00000000, 0x12345678, 0x9ABCDEF0] = some (.ok (.sigctl G7 { var := 0, d := ⟨0, false, 15, 48⟩, a := Z, b := ⟨0, false, 15, 0⟩, ty := 0, mod := 0, c := Z, lit := some 0x9ABCDEF012345678 })) ∧
    decodeWords [0x0000375E, 0x1E501E40, 0x00000000] = some (.ok (.pwrite G7 { var := 0, d := Z, a := ⟨0, false, 15, 64⟩, b := ⟨0, false, 15, 80⟩, ty := 0, mod := 0, c := Z, lit := none })) := by decide +kernel


end Sys2Proof.Tests
end

section
/-! PROOFS. Scalar integer instructions (R198 to R205): what each operation at width N does to patterns, then the three
statements about them, assembled from one frame lemma per shape of instruction. -/

namespace Sys2Proof.Proofs

open Sys2Proof.Machine Sys2Proof.Claims

/-! ### Patterns and the integers they stand for

`wrap` and `sgn` are `BitVec.ofInt` and `BitVec.toInt`, so the library's facts about sign extension and arithmetic shift
apply to them. -/

theorem wrap_eq_ofInt (n : Nat) (i : Int) : wrap n i = (BitVec.ofInt n i).toNat := by
  rw [wrap, BitVec.toNat_ofInt, Int.natCast_pow]
  rfl

theorem wrap_lt (n : Nat) (i : Int) : wrap n i < 2 ^ n := by
  rw [wrap_eq_ofInt]
  exact BitVec.isLt _

theorem natCast_wrap (n : Nat) (i : Int) : (wrap n i : Int) = i % 2 ^ n :=
  Int.toNat_of_nonneg (Int.emod_nonneg i (Int.ne_of_gt (Int.pow_pos (by decide))))

theorem wrap_natCast (n v : Nat) : wrap n v = v % 2 ^ n := by
  rw [wrap_eq_ofInt, BitVec.ofInt_natCast, BitVec.toNat_ofNat]

theorem wrap_congr {n : Nat} {i j : Int} (h : i % 2 ^ n = j % 2 ^ n) : wrap n i = wrap n j :=
  congrArg Int.toNat h

theorem natCast_wrap_emod (n : Nat) (i : Int) : (wrap n i : Int) % 2 ^ n = i % 2 ^ n := by
  rw [natCast_wrap, Int.emod_emod]

theorem sgn_eq_toInt {v n : Nat} (hv : v < 2 ^ n) : sgn v n = (BitVec.ofNat n v).toInt := by
  have half : v < 2 ^ (n - 1) ↔ 2 * v < 2 ^ n := by
    cases n with
    | zero => rw [Nat.pow_zero] at hv ⊢; omega
    | succ n => rw [Nat.add_sub_cancel, Nat.pow_succ]; omega
  rw [BitVec.toInt_eq_toNat_cond, BitVec.toNat_ofNat, Nat.mod_eq_of_lt hv, sgn, Int.natCast_pow]
  simp only [half]
  rfl

/-- A pattern taken as signed and wrapped to any width is its sign extension to that width. -/
theorem wrap_sgn_eq_signExtend {v n : Nat} (hv : v < 2 ^ n) (m : Nat) :
    wrap m (sgn v n) = ((BitVec.ofNat n v).signExtend m).toNat := by
  rw [wrap_eq_ofInt, sgn_eq_toInt hv, BitVec.signExtend]

theorem wrap_sgn_self {v n : Nat} (hv : v < 2 ^ n) : wrap n (sgn v n) = v := by
  rw [wrap_sgn_eq_signExtend hv, BitVec.signExtend_eq, BitVec.toNat_ofNat, Nat.mod_eq_of_lt hv]

theorem testBit_eq_false {v n i : Nat} (hv : v < 2 ^ n) (hi : n ≤ i) : v.testBit i = false :=
  Nat.testBit_lt_two_pow (Nat.lt_of_lt_of_le hv (Nat.pow_le_pow_right Nat.two_pos hi))

/-- The bits of a pattern as a bit vector; its width bounds them already. -/
theorem getLsbD_ofNat_of_lt {v n : Nat} (hv : v < 2 ^ n) (i : Nat) : (BitVec.ofNat n v).getLsbD i = v.testBit i := by
  rw [← BitVec.testBit_toNat, BitVec.toNat_ofNat, Nat.mod_eq_of_lt hv]

theorem msb_ofNat_of_lt {v n : Nat} (hv : v < 2 ^ n) : (BitVec.ofNat n v).msb = v.testBit (n - 1) := by
  rw [BitVec.msb_eq_getLsbD_last, getLsbD_ofNat_of_lt hv]

theorem sgn_neg_iff_testBit {v n : Nat} (hv : v < 2 ^ n) : sgn v n < 0 ↔ v.testBit (n - 1) = true := by
  rw [sgn_eq_toInt hv, ← msb_ofNat_of_lt hv, BitVec.msb_eq_toInt, decide_eq_true_iff]

/-! ### Numbers given by their bits -/

theorem bitsOf_succ (n : Nat) (f : Nat → Bool) : bitsOf (n + 1) f = bitsOf n f + (f n).toNat * 2 ^ n := by
  rw [bitsOf, List.range_succ, List.foldl_append]
  rfl

theorem bitsOf_lt (n : Nat) (f : Nat → Bool) : bitsOf n f < 2 ^ n := by
  induction n with
  | zero => exact Nat.one_pos
  | succ n ih =>
    have hbit : (f n).toNat * 2 ^ n ≤ 1 * 2 ^ n := Nat.mul_le_mul_right _ (Bool.toNat_le _)
    rw [bitsOf_succ, Nat.pow_succ]
    omega

theorem testBit_toNat (b : Bool) (i : Nat) : b.toNat.testBit i = (decide (i = 0) && b) := by
  cases b with
  | false => rw [Bool.toNat_false, Nat.zero_testBit, Bool.and_false]
  | true => cases i with
    | zero => rfl
    | succ i => exact Nat.testBit_lt_two_pow (Nat.one_lt_two_pow (Nat.succ_ne_zero i))

theorem testBit_bitsOf (n : Nat) (f : Nat → Bool) (i : Nat) : (bitsOf n f).testBit i = (decide (i < n) && f i) := by
  induction n with
  | zero => exact Nat.zero_testBit i
  | succ n ih =>
    rw [bitsOf_succ, Nat.add_comm, Nat.mul_comm, Nat.testBit_two_pow_mul_add _ (bitsOf_lt n f), ih, testBit_toNat]
    by_cases h : i < n
    · rw [if_pos h, decide_eq_true h, decide_eq_true (Nat.lt_succ_of_lt h)]
    · rw [if_neg h]
      by_cases heq : i = n
      · rw [heq, decide_eq_true (Nat.sub_self n), decide_eq_true (Nat.lt_succ_self n)]
      · rw [decide_eq_false (show ¬ i - n = 0 by omega), decide_eq_false (show ¬ i < n + 1 by omega), Bool.false_and,
          Bool.false_and]

/-- A number below 2^n is the one whose bits below n are its own. -/
theorem eq_bitsOf {n v : Nat} {f : Nat → Bool} (hv : v < 2 ^ n) (hf : ∀ i, i < n → v.testBit i = f i) : v = bitsOf n f := by
  refine Nat.eq_of_testBit_eq fun i => ?_
  rw [testBit_bitsOf]
  by_cases hi : i < n
  · rw [hf i hi, decide_eq_true hi, Bool.true_and]
  · rw [testBit_eq_false hv (Nat.le_of_not_lt hi), decide_eq_false hi, Bool.false_and]

theorem mod_two_pow_eq_bitsOf {n v : Nat} {f : Nat → Bool} (hf : ∀ i, i < n → v.testBit i = f i) :
    v % 2 ^ n = bitsOf n f :=
  eq_bitsOf (Nat.mod_lt v (Nat.two_pow_pos n)) fun i hi => by
    rw [Nat.testBit_mod_two_pow, decide_eq_true hi, Bool.true_and, hf i hi]

theorem bitsOf_congr {n : Nat} {f g : Nat → Bool} (h : ∀ i, i < n → f i = g i) : bitsOf n f = bitsOf n g :=
  eq_bitsOf (bitsOf_lt n f) fun i hi => by rw [testBit_bitsOf, decide_eq_true hi, Bool.true_and, h i hi]

theorem bitsOf_eq_zero {n : Nat} {f : Nat → Bool} (h : ∀ i, i < n → f i = false) : bitsOf n f = 0 :=
  (eq_bitsOf (Nat.two_pow_pos n) fun i hi => by rw [Nat.zero_testBit, h i hi]).symm

/-- The bits of a sign extension: those of the pattern, then copies of its highest. -/
theorem wrap_sgn_eq_bitsOf {v n : Nat} (hv : v < 2 ^ n) (m : Nat) :
    wrap m (sgn v n) = bitsOf m fun i => if i < n then v.testBit i else v.testBit (n - 1) :=
  eq_bitsOf (wrap_lt m _) fun i hi => by
    rw [wrap_sgn_eq_signExtend hv, BitVec.testBit_toNat, BitVec.getLsbD_signExtend, getLsbD_ofNat_of_lt hv,
      msb_ofNat_of_lt hv, decide_eq_true hi, Bool.true_and]

/-! ### The arithmetic operations at width N (Table 11-1, R199, R200) -/

theorem wrap_mod_self (n : Nat) (i : Int) : wrap n i % 2 ^ n = wrap n i := Nat.mod_eq_of_lt (wrap_lt n i)

theorem ones_lt (n : Nat) : 2 ^ n - 1 < 2 ^ n := Nat.sub_lt (Nat.two_pow_pos n) Nat.one_pos

/-- A result that either of two patterns can be is a pattern of the same width. -/
theorem ite_lt {n a b : Nat} {c : Prop} [Decidable c] (ha : a < 2 ^ n) (hb : b < 2 ^ n) :
    (if c then a else b) < 2 ^ n := by
  split
  · exact ha
  · exact hb

theorem addN_wrap (n : Nat) (i j : Int) : addN n (wrap n i) (wrap n j) = wrap n (i + j) := by
  rw [addN, ← wrap_natCast, Int.natCast_add]
  exact wrap_congr (by rw [Int.add_emod, natCast_wrap_emod, natCast_wrap_emod, ← Int.add_emod])

theorem subN_eq_wrap {n a b : Nat} (hb : b < 2 ^ n) : subN n a b = wrap n (a - b) := by
  have hcast : ((a + 2 ^ n - b : Nat) : Int) = (a : Int) - b + ((2 ^ n : Nat) : Int) := by omega
  rw [subN, ← wrap_natCast, hcast, Int.natCast_pow]
  exact wrap_congr (Int.add_emod_right _ _)

theorem subN_wrap (n : Nat) (i j : Int) : subN n (wrap n i) (wrap n j) = wrap n (i - j) := by
  rw [subN_eq_wrap (wrap_lt n j)]
  exact wrap_congr (by rw [Int.sub_emod, natCast_wrap_emod, natCast_wrap_emod, ← Int.sub_emod])

theorem mulN_wrap (n : Nat) (i j : Int) : mulN n (wrap n i) (wrap n j) = wrap n (i * j) := by
  rw [mulN, ← wrap_natCast, Int.natCast_mul]
  exact wrap_congr (by rw [Int.mul_emod, natCast_wrap_emod, natCast_wrap_emod, ← Int.mul_emod])

theorem mulhuN_lt {n a b : Nat} (ha : a < 2 ^ n) (hb : b < 2 ^ n) : mulhuN n a b < 2 ^ n :=
  Nat.div_lt_of_lt_mul (Nat.mul_lt_mul_of_lt_of_lt ha hb)

theorem divN_lt {n a : Nat} (ha : a < 2 ^ n) (b : Nat) : divN n a b < 2 ^ n :=
  ite_lt (ones_lt n) (ite_lt ha (wrap_lt n _))

theorem divuN_lt {n a : Nat} (ha : a < 2 ^ n) (b : Nat) : divuN n a b < 2 ^ n :=
  ite_lt (ones_lt n) (Nat.lt_of_le_of_lt (Nat.div_le_self a b) ha)

/-- The remainder of R199 is what the quotient leaves. -/
theorem remN_eq_remS (n a b : Nat) : remN n a b = remS n a b := by
  rw [remN, remS, Int.tmod_def, Int.mul_comm (sgn b n)]

theorem remS_lt {n a : Nat} (ha : a < 2 ^ n) (b : Nat) : remS n a b < 2 ^ n :=
  ite_lt ha (ite_lt (Nat.two_pow_pos n) (wrap_lt n _))

theorem remuN_eq_remU (n a b : Nat) : remuN n a b = remU a b := by
  rw [remuN, remU, Nat.mod_eq_sub_div_mul]

theorem remU_lt {n a : Nat} (ha : a < 2 ^ n) (b : Nat) : remU a b < 2 ^ n :=
  ite_lt ha (Nat.lt_of_le_of_lt (Nat.sub_le _ _) ha)

theorem minuN_eq_min (n a b : Nat) : minuN n a b = min a b := Nat.min_def.symm

theorem maxuN_eq_max (n a b : Nat) : maxuN n a b = max a b := by
  rw [maxuN, Nat.max_comm, Nat.max_def]

theorem absN_eq {n a : Nat} (ha : a < 2 ^ n) :
    absN n a = if 0 ≤ sgn a n then a else wrap n (0 - sgn a n) := by
  have hself : (a : Int) % 2 ^ n = sgn a n % 2 ^ n := by
    rw [← natCast_wrap_emod n (sgn a n), wrap_sgn_self ha]
  have hneg : wrap n (0 - (a : Int)) = wrap n (0 - sgn a n) :=
    wrap_congr (by rw [Int.sub_emod, hself, ← Int.sub_emod])
  rw [absN, subN_eq_wrap ha, Int.natCast_zero, hneg]

theorem absN_lt {n a : Nat} (ha : a < 2 ^ n) : absN n a < 2 ^ n := by
  rw [absN_eq ha]
  exact ite_lt ha (wrap_lt n _)

/-! ### Logic, shifts and the rotate at width N (R201, R202) -/

theorem testBit_notN {n b i : Nat} (hb : b < 2 ^ n) (hi : i < n) : (notN n b).testBit i = !b.testBit i := by
  rw [notN, Nat.mod_eq_of_lt hb, Nat.sub_sub, Nat.add_comm, Nat.testBit_two_pow_sub_succ hb, decide_eq_true hi,
    Bool.true_and]

theorem shlN_eq (n a h : Nat) : shlN n a h = a * 2 ^ h % 2 ^ n := by
  rw [shlN, Nat.shiftLeft_eq]
  by_cases hh : h < n
  · rw [if_pos hh]
  · rw [if_neg hh, Nat.mod_eq_zero_of_dvd (Nat.dvd_mul_left_of_dvd (Nat.pow_dvd_pow 2 (Nat.le_of_not_lt hh)) a)]

theorem shrN_eq {n a : Nat} (ha : a < 2 ^ n) (h : Nat) : shrN n a h = a / 2 ^ h := by
  rw [shrN, Nat.shiftRight_eq_div_pow]
  by_cases hh : h < n
  · rw [if_pos hh]
  · rw [if_neg hh, Nat.div_eq_of_lt (Nat.lt_of_lt_of_le ha (Nat.pow_le_pow_right Nat.two_pos (Nat.le_of_not_lt hh)))]

/-- Within the width, the arithmetic shift is that of the bit vector. -/
theorem wrap_sgn_div_eq_sshiftRight {n a : Nat} (ha : a < 2 ^ n) (h : Nat) :
    wrap n (sgn a n / 2 ^ h) = ((BitVec.ofNat n a).sshiftRight h).toNat := by
  rw [wrap_eq_ofInt, BitVec.sshiftRight, Int.shiftRight_eq_div_pow, sgn_eq_toInt ha, Int.natCast_pow]
  rfl

/-- The arithmetic shift moves the bits down and copies the highest one in from above. -/
theorem testBit_sarN {n a i : Nat} (ha : a < 2 ^ n) (h : Nat) (hi : i < n) :
    (sarN n a h).testBit i = a.testBit (min (i + h) (n - 1)) := by
  rw [sarN]
  by_cases hh : h < n
  · rw [if_pos hh, wrap_sgn_div_eq_sshiftRight ha, BitVec.testBit_toNat, BitVec.getLsbD_sshiftRight,
      getLsbD_ofNat_of_lt ha, msb_ofNat_of_lt ha, decide_eq_false (Nat.not_le_of_lt hi), Bool.not_false, Bool.true_and,
      Nat.add_comm h i]
    by_cases hlow : i + h < n
    · rw [if_pos hlow, show min (i + h) (n - 1) = i + h by omega]
    · rw [if_neg hlow, show min (i + h) (n - 1) = n - 1 by omega]
  · rw [if_neg hh, show min (i + h) (n - 1) = n - 1 by omega]
    by_cases hneg : sgn a n < 0
    · rw [if_pos hneg, Nat.testBit_two_pow_sub_one, decide_eq_true hi, (sgn_neg_iff_testBit ha).mp hneg]
    · rw [if_neg hneg, Nat.zero_testBit, Bool.eq_false_iff.mpr fun htop => hneg ((sgn_neg_iff_testBit ha).mpr htop)]

/-- The rotate by j = h mod N takes bit i from i − j, round the end. -/
theorem testBit_rolN {n a i : Nat} (ha : a < 2 ^ n) (h : Nat) (hi : i < n) :
    (rolN n a h).testBit i = a.testBit ((i + (n - h % n)) % n) := by
  have hj : h % n < n := Nat.mod_lt h (by omega)
  rw [rolN, Nat.testBit_mod_two_pow, Nat.testBit_or, Nat.testBit_shiftLeft, Nat.testBit_shiftRight, decide_eq_true hi,
    Bool.true_and]
  by_cases hlow : h % n ≤ i
  · have hidx : (i + (n - h % n)) % n = i - h % n := by
      rw [show i + (n - h % n) = i - h % n + n by omega, Nat.add_mod_right, Nat.mod_eq_of_lt (by omega)]
    rw [hidx, decide_eq_true hlow, Bool.true_and, testBit_eq_false ha (show n ≤ n - h % n + i by omega), Bool.or_false]
  · rw [Nat.mod_eq_of_lt (show i + (n - h % n) < n by omega), decide_eq_false hlow, Bool.false_and, Bool.false_or,
      Nat.add_comm]

/-! ### Counts of bits (R203) -/

theorem clzN_eq {m a : Nat} (ha : a < 2 ^ m) : clzN m a = if a = 0 then m else m - 1 - Nat.log2 a := by
  induction m with
  | zero => rw [if_pos (show a = 0 by rw [Nat.pow_zero] at ha; omega)]; rfl
  | succ m ih =>
    rw [clzN]
    by_cases hbit : a.testBit m = true
    · have hge : 2 ^ m ≤ a := Nat.ge_two_pow_of_testBit hbit
      have hne : a ≠ 0 := Nat.ne_of_gt (Nat.lt_of_lt_of_le (Nat.two_pow_pos m) hge)
      rw [if_pos hbit, if_neg hne, (Nat.log2_eq_iff hne).mpr ⟨hge, ha⟩]
      omega
    · have hlt : a < 2 ^ m := Nat.lt_of_not_le fun hge =>
        hbit (Nat.testBit_of_two_pow_le_and_two_pow_add_one_gt hge ha)
      rw [if_neg hbit, ih hlt]
      by_cases hz : a = 0
      · rw [if_pos hz, if_pos hz]
      · have hlog : Nat.log2 a < m := (Nat.log2_lt hz).mpr hlt
        rw [if_neg hz, if_neg hz]
        omega

theorem ctzN_zero (m : Nat) : ctzN m 0 = m := by
  induction m with
  | zero => rfl
  | succ m ih => exact congrArg (· + 1) ih

theorem ctzN_eq_takeWhile (m a : Nat) : ctzN m a = ((List.range m).takeWhile fun i => !a.testBit i).length := by
  induction m generalizing a with
  | zero => rfl
  | succ m ih =>
    have hcomp : (fun i => !a.testBit i) ∘ Nat.succ = fun i => !(a / 2).testBit i :=
      funext fun i => congrArg (!·) (Nat.testBit_succ a i)
    rw [ctzN, ih, List.range_succ_eq_map, List.takeWhile_cons, List.takeWhile_map, hcomp]
    cases a.testBit 0 with
    | false => exact (congrArg (· + 1) (List.length_map _)).symm
    | true => rfl

theorem ctzN_eq {m a : Nat} :
    ctzN m a = if a = 0 then m else ((List.range m).takeWhile fun i => !a.testBit i).length := by
  by_cases hz : a = 0
  · rw [if_pos hz, hz, ctzN_zero]
  · rw [if_neg hz, ctzN_eq_takeWhile]

theorem popcN_eq (m a : Nat) : popcN m a = ((List.range m).filter fun i => a.testBit i).length := by
  induction m generalizing a with
  | zero => rfl
  | succ m ih =>
    have hcomp : (fun i => a.testBit i) ∘ Nat.succ = fun i => (a / 2).testBit i := funext (Nat.testBit_succ a)
    rw [popcN, ih, List.range_succ_eq_map, List.filter_cons, List.filter_map, hcomp, Nat.testBit_zero]
    rcases Nat.mod_two_eq_zero_or_one a with h | h
    · rw [h, Nat.zero_add, if_neg (by decide), List.length_map]
    · rw [h, Nat.add_comm, if_pos (by decide), List.length_cons, List.length_map]

/-! ### Bit fields (R204, R205) -/

/-- The bits of a field of l bits at p. -/
theorem testBit_shiftRight_mod (a p l i : Nat) : ((a >>> p) % 2 ^ l).testBit i = (decide (i < l) && a.testBit (p + i)) := by
  rw [Nat.testBit_mod_two_pow, Nat.testBit_shiftRight]

/-- The sign extension of a field of l bits at p, not empty. -/
theorem wrap_sgn_field {l : Nat} (hl : 0 < l) (a p m : Nat) : wrap m (sgn ((a >>> p) % 2 ^ l) l) =
    bitsOf m fun i => if i < l then a.testBit (p + i) else a.testBit (p + l - 1) := by
  rw [wrap_sgn_eq_bitsOf (Nat.mod_lt _ (Nat.two_pow_pos l))]
  refine bitsOf_congr fun i _ => ?_
  rw [testBit_shiftRight_mod, testBit_shiftRight_mod, decide_eq_true (show l - 1 < l by omega), Bool.true_and,
    show p + (l - 1) = p + l - 1 by omega]
  by_cases hi : i < l
  · rw [if_pos hi, if_pos hi, decide_eq_true hi, Bool.true_and]
  · rw [if_neg hi, if_neg hi]

theorem extendSigned_eq_bitsOf (n a : Nat) :
    (if n = 0 then 0 else wrap 64 (sgn (a % 2 ^ n) n)) = bitsOf 64 fun i => n != 0 && a.testBit (min i (n - 1)) := by
  by_cases hn : n = 0
  · rw [if_pos hn, bitsOf_eq_zero fun i _ => by rw [hn]; rfl]
  · have hfield := wrap_sgn_field (Nat.pos_of_ne_zero hn) a 0 64
    rw [Nat.shiftRight_zero] at hfield
    rw [if_neg hn, hfield]
    refine bitsOf_congr fun i _ => ?_
    rw [bne_iff_ne.mpr hn, Bool.true_and, Nat.zero_add, Nat.zero_add]
    by_cases hi : i < n
    · rw [if_pos hi, show min i (n - 1) = i by omega]
    · rw [if_neg hi, show min i (n - 1) = n - 1 by omega]

theorem extendUnsigned_eq_bitsOf (n a : Nat) : (if n = 0 then 0 else a % 2 ^ n) = bitsOf n a.testBit := by
  rw [← mod_two_pow_eq_bitsOf fun _ _ => rfl]
  by_cases hn : n = 0
  · rw [if_pos hn, hn, Nat.pow_zero, Nat.mod_one]
  · rw [if_neg hn]

/-- bfx: an empty field gives 0, any other its bits, extended under the type. -/
theorem field_eq_bitsOf {m : Nat} (hm : m ≤ 64) (ty a p l : Nat) : field ty m a p l =
    bitsOf 64 fun i => min l (m - p) != 0 &&
      (if i < min l (m - p) then a.testBit (p + i) else ty == 0 && a.testBit (p + min l (m - p) - 1)) := by
  rw [field]
  by_cases hempty : p ≥ m ∨ l = 0
  · rw [if_pos hempty, show min l (m - p) = 0 by omega]
    exact (bitsOf_eq_zero fun _ _ => rfl).symm
  · have hpos : 0 < min l (m - p) := by omega
    have hle : min l (m - p) ≤ 64 := by omega
    rw [if_neg hempty]
    generalize min l (m - p) = w at hpos hle ⊢
    have hne : (w != 0) = true := bne_iff_ne.mpr (Nat.ne_of_gt hpos)
    dsimp only
    by_cases hty : ty = 0
    · rw [if_pos hty, wrap_sgn_field hpos]
      refine bitsOf_congr fun i _ => ?_
      rw [hne, Bool.true_and, beq_iff_eq.mpr hty, Bool.true_and]
    · have hlt : (a >>> p) % 2 ^ w < 2 ^ w := Nat.mod_lt _ (Nat.two_pow_pos w)
      rw [if_neg hty]
      refine eq_bitsOf (Nat.lt_of_lt_of_le hlt (Nat.pow_le_pow_right Nat.two_pos hle)) fun i _ => ?_
      rw [testBit_shiftRight_mod, hne, Bool.true_and, beq_eq_false_iff_ne.mpr hty, Bool.false_and]
      by_cases hi : i < w
      · rw [if_pos hi, decide_eq_true hi, Bool.true_and]
      · rw [if_neg hi, decide_eq_false hi, Bool.false_and]

/-- Inserting a field of l bits at p: the bits above it, the field, the bits below it. -/
theorem sub_add_field_eq (d a p l : Nat) :
    d - ((d >>> p) % 2 ^ l) <<< p + (a % 2 ^ l) <<< p = 2 ^ p * (2 ^ l * (d / 2 ^ p / 2 ^ l) + a % 2 ^ l) + d % 2 ^ p := by
  have hd : 2 ^ p * (2 ^ l * (d / 2 ^ p / 2 ^ l) + d / 2 ^ p % 2 ^ l) + d % 2 ^ p = d := by
    rw [Nat.div_add_mod, Nat.div_add_mod]
  rw [Nat.mul_add] at hd ⊢
  rw [Nat.shiftRight_eq_div_pow, Nat.shiftLeft_eq, Nat.shiftLeft_eq, Nat.mul_comm (d / 2 ^ p % 2 ^ l),
    Nat.mul_comm (a % 2 ^ l)]
  omega

theorem testBit_insert (m d a p l i : Nat) : (Machine.insert m d a p l).testBit i =
    if p ≤ i ∧ i < p + min l (m - p) then a.testBit (i - p) else d.testBit i := by
  rw [Machine.insert]
  by_cases hfield : p < m ∧ l > 0
  · rw [if_pos hfield]
    generalize min l (m - p) = w
    dsimp only
    rw [sub_add_field_eq, Nat.testBit_two_pow_mul_add _ (Nat.mod_lt d (Nat.two_pow_pos p)),
      Nat.testBit_two_pow_mul_add _ (Nat.mod_lt a (Nat.two_pow_pos w)), Nat.testBit_mod_two_pow, Nat.testBit_mod_two_pow,
      Nat.testBit_div_two_pow, Nat.testBit_div_two_pow]
    by_cases hlow : i < p
    · rw [if_pos hlow, if_neg (by omega), decide_eq_true hlow, Bool.true_and]
    · rw [if_neg hlow]
      by_cases hin : i - p < w
      · rw [if_pos hin, if_pos (by omega), decide_eq_true hin, Bool.true_and]
      · rw [if_neg hin, if_neg (by omega), show i - p - w + w + p = i by omega]
  · rw [if_neg hfield, if_neg (by omega)]

theorem insert_lt {m d : Nat} (hd : d < 2 ^ m) (a p l : Nat) : Machine.insert m d a p l < 2 ^ m := by
  refine Nat.lt_pow_two_of_testBit _ fun i hi => ?_
  rw [testBit_insert, if_neg (by omega), testBit_eq_false hd hi]

/-- bfi: the field of d replaced by the low bits of a, cut at the end of d. -/
theorem insert_eq_bitsOf {m d : Nat} (hd : d < 2 ^ m) (a p l : Nat) : Machine.insert m d a p l =
    bitsOf m fun i => if p ≤ i ∧ i < p + min l (m - p) then a.testBit (i - p) else d.testBit i :=
  eq_bitsOf (insert_lt hd a p l) fun i _ => testBit_insert m d a p l i

/-! ### Operands (R159, R181, R197) -/

theorem readSlices_lt (f : BitVec 2048) (r : Rng) : readSlices f r < 2 ^ (4 * r.width) :=
  Nat.mod_lt _ (Nat.two_pow_pos _)

theorem src_read_lt (x : Src) (r : Regs) : x.read r < 2 ^ (4 * x.width) := by
  cases x with
  | reg g => exact readSlices_lt r.scalar g
  | lit v w => exact Nat.mod_lt _ (Nat.two_pow_pos _)

theorem rngOf_width_le (x : Slot) : 4 * (rngOf x).width ≤ 64 := by
  have hwm1 := x.wm1.isLt
  change 4 * (x.wm1.toNat + 1) ≤ 64
  omega

/-- Extension under a type is the wrapping of the integer that the operand stands for. -/
theorem ext_eq_wrap_intOf {v w n : Nat} (ty : Nat) (hv : v < 2 ^ w) (hw : w ≤ n) :
    Machine.ext ty v w n = wrap n (intOf ty v w) := by
  rw [Machine.ext, intOf]
  by_cases hty : ty = 0
  · rw [if_pos hty, if_pos hty]
  · rw [if_neg hty, if_neg hty, wrap_natCast,
      Nat.mod_eq_of_lt (Nat.lt_of_lt_of_le hv (Nat.pow_le_pow_right Nat.two_pos hw))]

theorem ext_a_eq_aPat (o : Opnds) (r : Regs) :
    Machine.ext o.ty (readSlices r.scalar o.a) (4 * o.a.width) o.n = aPat o r :=
  ext_eq_wrap_intOf o.ty (readSlices_lt ..) (by rw [Opnds.n]; omega)

theorem ext_b_eq_bPat (o : Opnds) (r : Regs) : o.b.ext o.ty o.n r = bPat o r :=
  ext_eq_wrap_intOf o.ty (src_read_lt ..) (by rw [Opnds.n]; omega)

theorem ext_a_eq_uPat (o : Opnds) (r : Regs) :
    Machine.ext o.ty (readSlices r.scalar o.a) (4 * o.a.width) (uWidth o) = uPat o r :=
  ext_eq_wrap_intOf o.ty (readSlices_lt ..) (by rw [uWidth]; omega)

theorem aPat_lt (o : Opnds) (r : Regs) : aPat o r < 2 ^ o.n := wrap_lt ..
theorem bPat_lt (o : Opnds) (r : Regs) : bPat o r < 2 ^ o.n := wrap_lt ..
theorem uPat_lt (o : Opnds) (r : Regs) : uPat o r < 2 ^ uWidth o := wrap_lt ..

/-! ### The frame of each shape of scalar instruction

Under a true guard an instruction of the shape leaves `wrote`; what remains to be said of each mnemonic is its value,
and that its arm of `exec` has the shape, which holds by unfolding. -/

theorem scalarR_wrote {g : Guard} {s : State} (hg : s.me.r.guardTrue g = true) (len : Nat) (f : Regs → Regs) :
    scalarR g len f s = .next (wrote len f s) := scalarR_true hg len f

section Shapes
variable {base : Guard → B3 → Instr} {baseU : Guard → BU → Instr} {ext : Guard → XA → Instr}

theorem binary_wrote {g : Guard} {s : State} (hg : s.me.r.guardTrue g = true) (f : Nat → Nat → Nat → Nat) (o : Opnds) :
    binary f g o s = .next (wrote o.len (fun r => r.put o.d (f o.n (aPat o r) (bPat o r) % 2 ^ o.n)) s) := by
  simp only [binary, scalarR_wrote hg, ext_a_eq_aPat, ext_b_eq_bPat]

theorem shift_wrote {g : Guard} {s : State} (hg : s.me.r.guardTrue g = true) (f : Nat → Nat → Nat → Nat) (o : Opnds) :
    shift f g o s = .next (wrote o.len (fun r => r.put o.d (f o.n (aPat o r) (o.b.read r) % 2 ^ o.n)) s) := by
  simp only [shift, scalarR_wrote hg, ext_a_eq_aPat]

theorem unary_wrote {g : Guard} {s : State} (hg : s.me.r.guardTrue g = true) (f : Nat → Nat → Nat) (o : Opnds) :
    unary f g o s = .next (wrote o.len (fun r => r.put o.d (f (uWidth o) (uPat o r) % 2 ^ uWidth o)) s) := by
  simp only [unary, scalarR_wrote hg, ← ext_a_eq_uPat, uWidth]

/-- Two-source instructions whose meaning is one operation on the operands write its value, in both forms. -/
theorem writes_of_wrote {op : Guard → Opnds → State → Out} {v : Opnds → Regs → Nat}
    (hop : ∀ g o s, s.me.r.guardTrue g = true → op g o s = .next (wrote o.len (fun r => r.put o.d (v o r)) s))
    (hbase : ∀ g o s, exec (base g o) s = op g (ofB3 o) s) (hext : ∀ g x s, exec (ext g x) s = op g (ofXA x) s) :
    Writes base ext v :=
  ⟨fun g o s hg => (hbase g o s).trans (hop g (ofB3 o) s hg), fun g x s hg => (hext g x s).trans (hop g (ofXA x) s hg)⟩

theorem writesU_of_wrote {op : Guard → Opnds → State → Out} {v : Opnds → Regs → Nat}
    (hop : ∀ g o s, s.me.r.guardTrue g = true → op g o s = .next (wrote o.len (fun r => r.put o.d (v o r)) s))
    (hbase : ∀ g o s, exec (baseU g o) s = op g (ofBU o) s) (hext : ∀ g x s, exec (ext g x) s = op g (ofXA x) s) :
    WritesU baseU ext v :=
  ⟨fun g o s hg => (hbase g o s).trans (hop g (ofBU o) s hg), fun g x s hg => (hext g x s).trans (hop g (ofXA x) s hg)⟩

/-- A binary instruction writes v when v is its operation at width N on the two patterns. -/
theorem writes_binary (f : Nat → Nat → Nat → Nat) {v : Opnds → Regs → Nat}
    (hv : ∀ o r, f o.n (aPat o r) (bPat o r) % 2 ^ o.n = v o r)
    (hbase : ∀ g o s, exec (base g o) s = binary f g (ofB3 o) s := by intros; rfl)
    (hext : ∀ g x s, exec (ext g x) s = binary f g (ofXA x) s := by intros; rfl) : Writes base ext v :=
  writes_of_wrote (fun _ o _ hg => by simp only [binary_wrote hg, hv]) hbase hext

theorem writes_shift (f : Nat → Nat → Nat → Nat) {v : Opnds → Regs → Nat}
    (hv : ∀ o r, f o.n (aPat o r) (o.b.read r) % 2 ^ o.n = v o r)
    (hbase : ∀ g o s, exec (base g o) s = shift f g (ofB3 o) s := by intros; rfl)
    (hext : ∀ g x s, exec (ext g x) s = shift f g (ofXA x) s := by intros; rfl) : Writes base ext v :=
  writes_of_wrote (fun _ o _ hg => by simp only [shift_wrote hg, hv]) hbase hext

theorem writesU_unary (f : Nat → Nat → Nat) {v : Opnds → Regs → Nat}
    (hv : ∀ o r, f (uWidth o) (uPat o r) % 2 ^ uWidth o = v o r)
    (hbase : ∀ g o s, exec (baseU g o) s = unary f g (ofBU o) s := by intros; rfl)
    (hext : ∀ g x s, exec (ext g x) s = unary f g (ofXA x) s := by intros; rfl) : WritesU baseU ext v :=
  writesU_of_wrote (fun _ o _ hg => by simp only [unary_wrote hg, hv]) hbase hext

theorem writesU_count (f : Nat → Nat → Nat) {v : Opnds → Regs → Nat}
    (hv : ∀ (o : Opnds) (r : Regs), f (4 * o.a.width) (readSlices r.scalar o.a) = v o r)
    (hbase : ∀ g o s, exec (baseU g o) s = count f g (ofBU o) s := by intros; rfl)
    (hext : ∀ g x s, exec (ext g x) s = count f g (ofXA x) s := by intros; rfl) : WritesU baseU ext v :=
  writesU_of_wrote (fun _ o _ hg => by simp only [count, scalarR_wrote hg, hv]) hbase hext

/-- An extended-only instruction that changes registers by f and falls through. -/
theorem writesX_of_scalarR {f : XA → Regs → Regs}
    (hext : ∀ g x s, exec (ext g x) s = scalarR g (extLen x.lit) (f x) s) : WritesX ext f :=
  fun g x s hg => (hext g x s).trans (scalarR_wrote hg ..)

end Shapes

/-! ### The statements -/

theorem binaryArithmetic : Claims.BinaryArithmetic :=
  ⟨writes_binary addN (fun o r => by rw [aPat, bPat, addN_wrap, wrap_mod_self]),
   writes_binary subN (fun o r => by rw [aPat, bPat, subN_wrap, wrap_mod_self]),
   writes_binary mulN (fun o r => by rw [aPat, bPat, mulN_wrap, wrap_mod_self]),
   writes_binary mulhN (fun _ _ => wrap_mod_self ..),
   writes_binary mulhuN (fun o r => Nat.mod_eq_of_lt (mulhuN_lt (aPat_lt o r) (bPat_lt o r))),
   writes_binary divN (fun o r => Nat.mod_eq_of_lt (divN_lt (aPat_lt o r) _)),
   writes_binary divuN (fun o r => Nat.mod_eq_of_lt (divuN_lt (aPat_lt o r) _)),
   writes_binary remN (fun o r => by rw [remN_eq_remS, Nat.mod_eq_of_lt (remS_lt (aPat_lt o r) _)]),
   writes_binary remuN (fun o r => by rw [remuN_eq_remU, Nat.mod_eq_of_lt (remU_lt (aPat_lt o r) _)]),
   writes_binary minN (fun o r => Nat.mod_eq_of_lt (ite_lt (aPat_lt o r) (bPat_lt o r))),
   writes_binary maxN (fun o r => Nat.mod_eq_of_lt (ite_lt (aPat_lt o r) (bPat_lt o r))),
   writes_binary minuN (fun o r => by rw [← minuN_eq_min o.n]; exact Nat.mod_eq_of_lt (ite_lt (aPat_lt o r) (bPat_lt o r))),
   writes_binary maxuN (fun o r => by rw [← maxuN_eq_max o.n]; exact Nat.mod_eq_of_lt (ite_lt (aPat_lt o r) (bPat_lt o r)))⟩

theorem unaryArithmetic : Claims.UnaryArithmetic :=
  ⟨writesU_unary negN (fun o r => by rw [negN, subN_eq_wrap (uPat_lt o r), Int.natCast_zero, wrap_mod_self]),
   writesU_unary absN (fun o r => by rw [Nat.mod_eq_of_lt (absN_lt (uPat_lt o r)), absN_eq (uPat_lt o r)])⟩

/-- Settles O1: each operation at width N, on operands that are integers modulo 2^N, gives the result of Table 11-1. -/
theorem scalarArithmetic : Obligations.ScalarArithmetic := ⟨binaryArithmetic, unaryArithmetic⟩

theorem logicBitByBit : Claims.LogicBitByBit :=
  ⟨writes_binary andN (fun _ _ => mod_two_pow_eq_bitsOf fun _ _ => Nat.testBit_and ..),
   writes_binary orN (fun _ _ => mod_two_pow_eq_bitsOf fun _ _ => Nat.testBit_or ..),
   writes_binary xorN (fun _ _ => mod_two_pow_eq_bitsOf fun _ _ => Nat.testBit_xor ..),
   writes_binary andnN (fun o r => mod_two_pow_eq_bitsOf fun i hi => by rw [andnN, Nat.testBit_and, testBit_notN (bPat_lt o r) hi]),
   writes_binary ornN (fun o r => mod_two_pow_eq_bitsOf fun i hi => by rw [ornN, Nat.testBit_or, testBit_notN (bPat_lt o r) hi])⟩

theorem shiftsAndRotate : Claims.ShiftsAndRotate :=
  ⟨writes_shift shlN (fun _ _ => by rw [shlN_eq, Nat.mod_mod]),
   writes_shift shrN (fun o r => by
     rw [shrN_eq (aPat_lt o r), Nat.mod_eq_of_lt (Nat.lt_of_le_of_lt (Nat.div_le_self ..) (aPat_lt o r))]),
   writes_shift sarN (fun o r => mod_two_pow_eq_bitsOf fun _ hi => testBit_sarN (aPat_lt o r) _ hi),
   writes_shift rolN (fun o r => mod_two_pow_eq_bitsOf fun _ hi => testBit_rolN (aPat_lt o r) _ hi)⟩

/-- Settles O2: the bits of each operation's result at width N are those the rules name. -/
theorem logicAndShifts : Obligations.LogicAndShifts := ⟨logicBitByBit, shiftsAndRotate⟩

theorem bitCounts : Claims.BitCounts :=
  ⟨writesU_count clzN (fun _ _ => clzN_eq (readSlices_lt ..)),
   writesU_count ctzN (fun _ _ => ctzN_eq),
   writesU_count popcN (fun _ _ => popcN_eq ..)⟩

theorem ty_toNat_beq_zero (ty : BitVec 4) : (ty.toNat == 0) = (ty == 0) := by
  rw [Bool.eq_iff_iff, beq_iff_eq, beq_iff_eq, BitVec.toNat_eq]
  rfl

theorem fieldInstructions : Claims.FieldInstructions :=
  ⟨writesX_of_scalarR fun g x s => by
     change extend true g (ofXA x) s = _
     simp only [extend, if_true, extendSigned_eq_bitsOf]
     rfl,
   writesX_of_scalarR fun g x s => by
     change extend false g (ofXA x) s = _
     simp only [extend, Bool.false_eq_true, if_false, extendUnsigned_eq_bitsOf]
     rfl,
   writesX_of_scalarR fun g x s => by
     change execBfx g x s = _
     simp only [execBfx, ofXA, field_eq_bitsOf (rngOf_width_le x.a), ty_toNat_beq_zero]
     rfl,
   writesX_of_scalarR fun g x s => by
     change execBfi g x s = _
     simp only [execBfi, ofXA, insert_eq_bitsOf (readSlices_lt ..)]
     rfl⟩

/-- Settles O3: counts by recursion on the width, fields by the bits of what is extracted, extended or inserted. -/
theorem bitsAndFields : Obligations.BitsAndFields := ⟨bitCounts, fieldInstructions⟩

end Sys2Proof.Proofs
end

section
/-! PROOFS. Vector integer instructions (R263 to R274): each lane's pattern at width N against the integer it stands for, then
the statements, assembled from one frame lemma per shape of instruction. -/

namespace Sys2Proof.Proofs

open Sys2Proof.Machine Sys2Proof.Claims

/-! ### Integers that fit a width (R159, R265)

The statements speak of the integers that the lanes hold, the model of their patterns at width N. Widening a lane changes
its pattern and not its integer, so an operation on patterns may be read as one on integers. -/

/-- An integer that some pattern of n bits stands for under a type code. -/
def Fits (ty n : Nat) (i : Int) : Prop := intOf ty (wrap n i) n = i

theorem intOf_sint (v w : Nat) : intOf 0 v w = sgn v w := if_pos rfl

theorem intOf_unsigned {ty : Nat} (hty : ty ≠ 0) (v w : Nat) : intOf ty v w = v := if_neg hty

theorem intOf_nonneg {ty : Nat} (hty : ty ≠ 0) (v w : Nat) : 0 ≤ intOf ty v w := by
  rw [intOf_unsigned hty]
  exact Int.natCast_nonneg v

theorem fits_intOf (ty : Nat) {v w n : Nat} (hv : v < 2 ^ w) (hw : w ≤ n) : Fits ty n (intOf ty v w) := by
  by_cases hty : ty = 0
  · subst hty
    rw [Fits, intOf_sint, intOf_sint, sgn_eq_toInt (wrap_lt n _), wrap_sgn_eq_signExtend hv, BitVec.ofNat_toNat,
      BitVec.setWidth_eq, BitVec.toInt_signExtend_of_le hw, sgn_eq_toInt hv]
  · rw [Fits, intOf_unsigned hty, intOf_unsigned hty, wrap_natCast,
      Nat.mod_eq_of_lt (Nat.lt_of_lt_of_le hv (Nat.pow_le_pow_right Nat.two_pos hw))]

theorem fits_max {ty n : Nat} {i j : Int} (hi : Fits ty n i) (hj : Fits ty n j) : Fits ty n (max i j) := by
  rcases Int.le_total i j with h | h
  · rwa [Int.max_eq_right h]
  · rwa [Int.max_eq_left h]

/-! ### The operations of the vector file on integers (Table 14-1, R266, R267) -/

theorem bySign_sint (f h : Nat → Nat → Nat → Nat) : bySign 0 f h = f := if_pos rfl

theorem bySign_unsigned {ty : Nat} (hty : ty ≠ 0) (f h : Nat → Nat → Nat → Nat) : bySign ty f h = h := if_neg hty

/-- A minimum chooses by the integers that its patterns stand for. -/
theorem minBySign_eq (ty n a b : Nat) :
    bySign ty minN minuN n a b = if intOf ty a n ≤ intOf ty b n then a else b := by
  by_cases hty : ty = 0
  · subst hty
    rw [bySign_sint, intOf_sint, intOf_sint, minN]
  · simp only [bySign_unsigned hty, intOf_unsigned hty, minuN, Int.ofNat_le]

theorem maxBySign_eq (ty n a b : Nat) :
    bySign ty maxN maxuN n a b = if intOf ty b n ≤ intOf ty a n then a else b := by
  by_cases hty : ty = 0
  · subst hty
    rw [bySign_sint, intOf_sint, intOf_sint, maxN]
  · simp only [bySign_unsigned hty, intOf_unsigned hty, maxuN, Int.ofNat_le, ge_iff_le]

theorem minBySign_wrap {ty n : Nat} {i j : Int} (hi : Fits ty n i) (hj : Fits ty n j) :
    bySign ty minN minuN n (wrap n i) (wrap n j) = wrap n (min i j) := by
  rw [minBySign_eq, hi, hj, ← apply_ite, Int.min_def]

theorem maxBySign_wrap {ty n : Nat} {i j : Int} (hi : Fits ty n i) (hj : Fits ty n j) :
    bySign ty maxN maxuN n (wrap n i) (wrap n j) = wrap n (max i j) := by
  rw [maxBySign_eq, hi, hj, ← apply_ite, Int.max_comm, Int.max_def]

/-- By a power of two the two divisions that round down agree. -/
theorem fdiv_two_pow (i : Int) (h : Nat) : Int.fdiv i (2 ^ h) = i / 2 ^ h :=
  Int.fdiv_eq_ediv_of_nonneg i (Int.le_of_lt (Int.pow_pos (by decide)))

/-- The high half of the product, of the signed integers or of the unsigned ones. -/
theorem mulhBySign_wrap {ty n : Nat} {i j : Int} (hi : Fits ty n i) (hj : Fits ty n j) :
    bySign ty mulhN mulhuN n (wrap n i) (wrap n j) % 2 ^ n = wrap n (Int.fdiv (i * j) (2 ^ n)) := by
  by_cases hty : ty = 0
  · subst hty
    rw [Fits, intOf_sint] at hi hj
    rw [bySign_sint, mulhN, hi, hj, wrap_mod_self]
  · rw [Fits, intOf_unsigned hty] at hi hj
    have hquot : ((wrap n i * wrap n j / 2 ^ n : Nat) : Int) = Int.fdiv (i * j) (2 ^ n) := by
      rw [fdiv_two_pow, Int.natCast_ediv, Int.natCast_mul, hi, hj, Int.natCast_pow, Int.cast_ofNat_Int]
    rw [bySign_unsigned hty, mulhuN, ← wrap_natCast, hquot]

theorem vmad_wrap (n : Nat) (i j k : Int) : (wrap n i * wrap n j + wrap n k) % 2 ^ n = wrap n (i * j + k) := by
  rw [← addN_wrap, ← mulN_wrap, addN, mulN, Nat.mod_add_mod]

/-- The absolute value under sint; under the other types the operand itself. -/
def absBySign (ty : Nat) : Nat → Nat → Nat := if ty = 0 then absN else fun _ a => a

theorem absBySign_toNat (ty : BitVec 4) : absBySign ty.toNat = if ty = 0 then absN else fun _ a => a := by
  simp only [absBySign, BitVec.toNat_eq]
  rfl

theorem absBySign_wrap {ty n : Nat} {i : Int} (hi : Fits ty n i) (hpos : ty ≠ 0 → 0 ≤ i) :
    absBySign ty n (wrap n i) = wrap n i.natAbs := by
  by_cases hty : ty = 0
  · subst hty
    rw [Fits, intOf_sint] at hi
    rw [absBySign, if_pos rfl, absN_eq (wrap_lt n i), hi]
    by_cases hneg : 0 ≤ i
    · rw [if_pos hneg, Int.natAbs_of_nonneg hneg]
    · rw [if_neg hneg, Int.ofNat_natAbs_of_nonpos (by omega), Int.zero_sub]
  · rw [absBySign, if_neg hty, Int.natAbs_of_nonneg (hpos hty)]

theorem negN_wrap (n : Nat) (i : Int) : negN n (wrap n i) = wrap n (-i) := by
  rw [negN, subN_eq_wrap (wrap_lt n i), Int.natCast_zero, Int.zero_sub]
  exact wrap_congr (by rw [← Int.zero_sub, Int.sub_emod, natCast_wrap_emod, ← Int.sub_emod, Int.zero_sub])

theorem vsraN_wrap {ty n : Nat} {i : Int} (hi : Fits ty n i) (h : Nat) :
    vsraN ty n (wrap n i) h = wrap n (if h = 0 then i else Int.fdiv (i + 2 ^ (h - 1)) (2 ^ h)) := by
  change wrap n (if h = 0 then intOf ty (wrap n i) n else (intOf ty (wrap n i) n + 2 ^ (h - 1)) / 2 ^ h) = _
  rw [hi, fdiv_two_pow]

/-! ### Lanes of the operands (R159, R161, R264) -/

theorem readLane_lt (f : BitVec 8192) (l : Nat) (r : Rng) : readLane f l r < 2 ^ (4 * r.width) :=
  Nat.mod_lt _ (Nat.two_pow_pos _)

theorem src_lane_lt (x : Src) (r : Regs) (l : Nat) : x.lane r l < 2 ^ (4 * x.width) := by
  cases x with
  | reg g => exact readLane_lt r.vec l g
  | lit v w => exact Nat.mod_lt _ (Nat.two_pow_pos _)

section Widths
variable (o : Opnds)

theorem a_width_le_n : 4 * o.a.width ≤ o.n := by rw [Opnds.n]; omega
theorem b_width_le_n : 4 * o.b.width ≤ o.n := by rw [Opnds.n]; omega
theorem a_width_le_n3 : 4 * o.a.width ≤ n3 o := Nat.le_trans (a_width_le_n o) (Nat.le_max_left ..)
theorem b_width_le_n3 : 4 * o.b.width ≤ n3 o := Nat.le_trans (b_width_le_n o) (Nat.le_max_left ..)
theorem c_width_le_n3 : 4 * o.c.width ≤ n3 o := Nat.le_max_right ..
theorem a_width_le_uWidth : 4 * o.a.width ≤ uWidth o := by rw [uWidth]; omega

end Widths

section Lanes
variable {o : Opnds} {n : Nat}

theorem ext_aLane_eq (h : 4 * o.a.width ≤ n) (r : Regs) (l : Nat) :
    Machine.ext o.ty (o.aLane r l) (4 * o.a.width) n = wrap n (aL o r l) :=
  ext_eq_wrap_intOf o.ty (readLane_lt ..) h

theorem ext_bLane_eq (h : 4 * o.b.width ≤ n) (r : Regs) (l : Nat) :
    Machine.ext o.ty (o.b.lane r l) (4 * o.b.width) n = wrap n (bL o r l) :=
  ext_eq_wrap_intOf o.ty (src_lane_lt ..) h

theorem ext_cLane_eq (h : 4 * o.c.width ≤ n) (r : Regs) (l : Nat) :
    Machine.ext o.ty (readLane r.vec l o.c) (4 * o.c.width) n = wrap n (cL o r l) :=
  ext_eq_wrap_intOf o.ty (readLane_lt ..) h

theorem fits_aL (h : 4 * o.a.width ≤ n) (r : Regs) (l : Nat) : Fits o.ty n (aL o r l) := fits_intOf o.ty (readLane_lt ..) h

theorem fits_bL (h : 4 * o.b.width ≤ n) (r : Regs) (l : Nat) : Fits o.ty n (bL o r l) := fits_intOf o.ty (src_lane_lt ..) h

theorem fits_cL (h : 4 * o.c.width ≤ n) (r : Regs) (l : Nat) : Fits o.ty n (cL o r l) := fits_intOf o.ty (readLane_lt ..) h

/-- A scalar source keeps its integer at the width of a broadcast. -/
theorem ext_b_eq_bInt (r : Regs) :
    o.b.ext o.ty (4 * max o.d.width o.b.width) r = wrap (4 * max o.d.width o.b.width) (bInt o r) :=
  ext_eq_wrap_intOf o.ty (src_read_lt ..) (by omega)

end Lanes

/-! ### The frame of each shape of vector instruction (R150, R265)

With a lane selected an instruction of the shape leaves `wrote`; what remains to be said of each mnemonic is its lane's
value, and that its arm of `exec` has the shape, which holds by unfolding. -/

theorem vectorR_wrote {g : Guard} {s : State} (hsel : s.me.r.lanes g ≠ 0) (len : Nat) (f : BitVec 8 → Regs → Regs) :
    vectorR g len f s = .next (wrote len (fun r => f (r.lanes g) r) s) := vectorR_some hsel len f

/-- An operation that, with a lane selected, writes v to the selected lanes of d and nothing else. -/
def WritesLanes (op : Guard → Opnds → State → Out) (v : Opnds → Regs → Nat → Nat) : Prop :=
  ∀ g o s, s.me.r.lanes g ≠ 0 → op g o s = .next (wrote o.len (fun r => r.putLanes o.d (r.lanes g) (v o r)) s)

section Shapes
variable {op : Guard → Opnds → State → Out} {v : Opnds → Regs → Nat → Nat}
variable {base : Guard → B3 → Instr} {baseU : Guard → BU → Instr} {ext : Guard → XA → Instr}

/-- An operation that writes the selected lanes from w, which agrees with v. -/
theorem writesLanes_of_vectorR {w : Opnds → Regs → Nat → Nat}
    (hop : ∀ g o s, op g o s = vectorR g o.len (fun sel r => r.putLanes o.d sel (w o r)) s)
    (hw : ∀ o r l, w o r l = v o r l) : WritesLanes op v := fun g o s hsel => by
  rw [hop, vectorR_wrote hsel, funext fun r => funext (hw o r)]

theorem vwrites_of_lanes (hop : WritesLanes op v) (hbase : ∀ g o s, exec (base g o) s = op g (ofB3V o) s)
    (hext : ∀ g x s, exec (ext g x) s = op g (ofXA x) s) : VWrites base ext v :=
  ⟨fun g o s hsel => (hbase g o s).trans (hop g (ofB3V o) s hsel),
   fun g x s hsel => (hext g x s).trans (hop g (ofXA x) s hsel)⟩

theorem vwritesU_of_lanes (hop : WritesLanes op v) (hbase : ∀ g o s, exec (baseU g o) s = op g (ofBUV o) s)
    (hext : ∀ g x s, exec (ext g x) s = op g (ofXA x) s) : VWritesU baseU ext v :=
  ⟨fun g o s hsel => (hbase g o s).trans (hop g (ofBUV o) s hsel),
   fun g x s hsel => (hext g x s).trans (hop g (ofXA x) s hsel)⟩

theorem vwritesX_of_lanes (hop : WritesLanes op v) (hext : ∀ g x s, exec (ext g x) s = op g (ofXA x) s) : VWritesX ext v :=
  fun g x s hsel => (hext g x s).trans (hop g (ofXA x) s hsel)

/-- A binary instruction writes v when v is its operation at width N, chosen by the type, on the two lanes' patterns. -/
theorem vwrites_binary (f : Nat → Nat → Nat → Nat → Nat)
    (hv : ∀ o r l, f o.ty o.n (wrap o.n (aL o r l)) (wrap o.n (bL o r l)) % 2 ^ o.n = v o r l)
    (hbase : ∀ g o s, exec (base g o) s = vbinary (f 0) g (ofB3V o) s := by intros; rfl)
    (hext : ∀ g x s, exec (ext g x) s = vbinary (f x.ty.toNat) g (ofXA x) s := by intros; rfl) : VWrites base ext v :=
  vwrites_of_lanes (op := fun g o s => vbinary (f o.ty) g o s)
    (writesLanes_of_vectorR (fun _ _ _ => rfl) fun o r l => by
      rw [ext_aLane_eq (a_width_le_n o), ext_bLane_eq (b_width_le_n o), hv])
    hbase hext

theorem vwrites_shift (f : Nat → Nat → Nat → Nat → Nat)
    (hv : ∀ o r l, f o.ty o.n (wrap o.n (aL o r l)) (o.b.lane r l) % 2 ^ o.n = v o r l)
    (hbase : ∀ g o s, exec (base g o) s = vshift (f 0) g (ofB3V o) s := by intros; rfl)
    (hext : ∀ g x s, exec (ext g x) s = vshift (f x.ty.toNat) g (ofXA x) s := by intros; rfl) : VWrites base ext v :=
  vwrites_of_lanes (op := fun g o s => vshift (f o.ty) g o s)
    (writesLanes_of_vectorR (fun _ _ _ => rfl) fun o r l => by rw [ext_aLane_eq (a_width_le_n o), hv])
    hbase hext

theorem vwritesU_unary (f : Nat → Nat → Nat → Nat)
    (hv : ∀ o r l, f o.ty (uWidth o) (wrap (uWidth o) (aL o r l)) % 2 ^ uWidth o = v o r l)
    (hbase : ∀ g o s, exec (baseU g o) s = vunary (f 0) g (ofBUV o) s := by intros; rfl)
    (hext : ∀ g x s, exec (ext g x) s = vunary (f x.ty.toNat) g (ofXA x) s := by intros; rfl) : VWritesU baseU ext v :=
  vwritesU_of_lanes (op := fun g o s => vunary (f o.ty) g o s)
    (writesLanes_of_vectorR (fun _ _ _ => rfl) fun o r l => by
      rw [← hv, ← ext_aLane_eq (a_width_le_uWidth o), uWidth])
    hbase hext

/-- A ternary operation, chosen by the type, on the three lanes' patterns. -/
theorem vternary_lanes (f : Nat → Nat → Nat → Nat → Nat → Nat)
    (hv : ∀ o r l,
      f o.ty (n3 o) (wrap (n3 o) (aL o r l)) (wrap (n3 o) (bL o r l)) (wrap (n3 o) (cL o r l)) % 2 ^ n3 o = v o r l) :
    WritesLanes (fun g o s => vternary (f o.ty) g o s) v :=
  writesLanes_of_vectorR (fun _ _ _ => rfl) fun o r l => by
    rw [← hv, ← ext_aLane_eq (a_width_le_n3 o), ← ext_bLane_eq (b_width_le_n3 o), ← ext_cLane_eq (c_width_le_n3 o), n3]

end Shapes

/-! ### The statement about the arithmetic, the logic and the shifts (R265 to R267) -/

theorem vectorArithmetic : Claims.VectorArithmetic :=
  ⟨vwrites_binary (fun _ => addN) (fun _ _ _ => by rw [addN_wrap, wrap_mod_self]),
   vwrites_binary (fun _ => subN) (fun _ _ _ => by rw [subN_wrap, wrap_mod_self]),
   vwrites_binary (fun _ => mulN) (fun _ _ _ => by rw [mulN_wrap, wrap_mod_self]),
   vwrites_binary (fun ty => bySign ty mulhN mulhuN) (fun o r l =>
     mulhBySign_wrap (fits_aL (a_width_le_n o) r l) (fits_bL (b_width_le_n o) r l)),
   vwrites_of_lanes (vternary_lanes (fun _ n a b c => (a * b + c) % 2 ^ n) fun _ _ _ => by rw [vmad_wrap, wrap_mod_self])
     (fun _ _ _ => rfl) (fun _ _ _ => rfl),
   vwrites_binary (fun ty => bySign ty minN minuN) (fun o r l => by
     rw [minBySign_wrap (fits_aL (a_width_le_n o) r l) (fits_bL (b_width_le_n o) r l), wrap_mod_self]),
   vwrites_binary (fun ty => bySign ty maxN maxuN) (fun o r l => by
     rw [maxBySign_wrap (fits_aL (a_width_le_n o) r l) (fits_bL (b_width_le_n o) r l), wrap_mod_self]),
   vwritesU_unary absBySign (fun o r l => by
       rw [absBySign_wrap (fits_aL (a_width_le_uWidth o) r l) (fun hty => intOf_nonneg hty ..), wrap_mod_self])
     (hext := fun g x s => by rw [absBySign_toNat]; rfl),
   vwritesU_unary (fun _ => negN) (fun _ _ _ => by rw [negN_wrap, wrap_mod_self]),
   vwrites_shift vsraN (fun o r l => by rw [vsraN_wrap (fits_aL (a_width_le_n o) r l), wrap_mod_self])⟩

theorem vectorLogicAndShifts : Claims.VectorLogicAndShifts :=
  ⟨vwrites_binary (fun _ => andN) (fun _ _ _ => mod_two_pow_eq_bitsOf fun _ _ => Nat.testBit_and ..),
   vwrites_binary (fun _ => orN) (fun _ _ _ => mod_two_pow_eq_bitsOf fun _ _ => Nat.testBit_or ..),
   vwrites_binary (fun _ => xorN) (fun _ _ _ => mod_two_pow_eq_bitsOf fun _ _ => Nat.testBit_xor ..),
   vwrites_shift (fun _ => shlN) (fun _ _ _ => by rw [shlN_eq, Nat.mod_mod]),
   vwrites_shift (fun _ => shrN) (fun _ _ _ => by
     rw [shrN_eq (wrap_lt ..), Nat.mod_eq_of_lt (Nat.lt_of_le_of_lt (Nat.div_le_self ..) (wrap_lt ..))]),
   vwrites_shift (fun _ => sarN) (fun _ _ _ => mod_two_pow_eq_bitsOf fun _ hi => testBit_sarN (wrap_lt ..) _ hi)⟩

/-- Settles O20: each lane's operands fit width N as integers, so each operation on their patterns is the one on integers. -/
theorem vectorIntegerLanes : Obligations.VectorIntegerLanes := ⟨vectorArithmetic, vectorLogicAndShifts⟩

/-! ### The statement about clamping, extension, selection and movement (R268, R269, R271 to R274) -/

theorem clampBySign_wrap {ty n : Nat} {i j k : Int} (hi : Fits ty n i) (hj : Fits ty n j) (hk : Fits ty n k) :
    bySign ty minN minuN n (bySign ty maxN maxuN n (wrap n i) (wrap n j)) (wrap n k) = wrap n (min (max i j) k) := by
  rw [maxBySign_wrap hi hj, minBySign_wrap (fits_max hi hj) hk]

theorem vclamp_writes : VWritesX .vclamp (fun o r l => wrap (n3 o) (min (max (aL o r l) (bL o r l)) (cL o r l))) :=
  vwritesX_of_lanes
    (vternary_lanes (fun ty n a b c => bySign ty minN minuN n (bySign ty maxN maxuN n a b) c) fun o r l => by
      rw [clampBySign_wrap (fits_aL (a_width_le_n3 o) r l) (fits_bL (b_width_le_n3 o) r l)
        (fits_cL (c_width_le_n3 o) r l), wrap_mod_self])
    (fun _ _ _ => rfl)

theorem vsext_writes : VWritesX .vsext (fun o r l =>
    let n := min (o.b.lane r l) (4 * o.a.width)
    bitsOf 64 fun i => n != 0 && (o.aLane r l).testBit (min i (n - 1))) :=
  vwritesX_of_lanes (op := vextend true)
    (writesLanes_of_vectorR (fun _ _ _ => rfl) fun _ _ _ => extendSigned_eq_bitsOf ..) fun _ _ _ => rfl

theorem vzext_writes : VWritesX .vzext (fun o r l => bitsOf (min (o.b.lane r l) (4 * o.a.width)) (o.aLane r l).testBit) :=
  vwritesX_of_lanes (op := vextend false)
    (writesLanes_of_vectorR (fun _ _ _ => rfl) fun _ _ _ => extendUnsigned_eq_bitsOf ..) fun _ _ _ => rfl

theorem vsel_writes : VWritesX .vsel (fun o r l =>
    wrap o.n (if (r.k (o.c.start % 8)).getLsbD l = true then aL o r l else bL o r l)) := fun g x s hsel => by
  change execVsel g x s = _
  simp only [execVsel, vectorR_wrote hsel, ext_aLane_eq (a_width_le_n _), ext_bLane_eq (b_width_le_n _), ← apply_ite]
  rfl

theorem vmov_writes : VWritesU .vmov .vmovExt (fun o r l => wrap (uWidth o) (aL o r l)) :=
  vwritesU_unary (fun _ _ a => a) fun _ _ _ => wrap_mod_self ..

theorem vbcast_writes : VWritesX .vbcast (fun o r _ => wrap (4 * max o.d.width o.b.width) (bInt o r)) := fun g x s hsel => by
  change execVbcast g x s = _
  simp only [execVbcast, vectorR_wrote hsel, ext_b_eq_bInt]
  rfl

theorem vext_writes : VWritesX .vext (fun o r l =>
    let j := readSlices r.scalar o.c % 8
    wrap o.n (if l + j < 8 then aL o r (l + j) else bL o r (l + j - 8))) := fun g x s hsel => by
  change execVext g x s = _
  simp only [execVext, vectorR_wrote hsel, ext_aLane_eq (a_width_le_n _), ext_bLane_eq (b_width_le_n _), ← apply_ite]
  rfl

theorem vperm_writes : VWrites .vperm .vpermExt (fun o r l => wrap o.n (aL o r (o.b.lane r l % 8))) :=
  vwrites_of_lanes (op := vpermute)
    (writesLanes_of_vectorR (fun _ _ _ => rfl) fun o _ _ => ext_aLane_eq (a_width_le_n o) ..)
    (fun _ _ _ => rfl) fun _ _ _ => rfl

/-- Settles O21: an integer lane keeps its integer when it is clamped, selected or moved; an extension is the one of the
scalar file on the lane's bits. -/
theorem vectorMoves : Obligations.VectorMoves :=
  ⟨vclamp_writes, vsext_writes, vzext_writes, vsel_writes, vmov_writes, vbcast_writes, vext_writes, vperm_writes⟩

end Sys2Proof.Proofs
end
